-- ==== Sys2Proof/Config.lean ====
section
/-! DEFINITION. What a build of the block fixes and the spec leaves open, and the environment's draws: constants without
a body, so that no proof can use a value of one. The reference constants of 00_scope.md R7 and the default glyph table
stand in Sys2Proof/Machine/Params.lean. -/

namespace Sys2Proof.Config

/-- CFG_12H of this build (10_state.md R53, D20: OPEN, no default). Log 6. -/
opaque cfg12hBuild : Bool

/-- GLYPH_ROM entry 15, "unspecified" (20_memory.md R73); no micro-operation reads it. Log 8. -/
opaque romEntry15 : BitVec 7

/-- The level of BTN_MIN at the n-th query (10_state.md R50, D16). Log 3. -/
opaque btnMinDraw : Nat → Bool

/-- The level of BTN_HOUR at the n-th query (R50, D16). Log 3. -/
opaque btnHourDraw : Nat → Bool

/-- VOLT_IN, in decivolts, at the n-th query (R50, D13, D17). Log 3. -/
opaque voltInDraw : Nat → BitVec 16

/-- TEMP_RAW at the n-th query (R50, D13, D17). Log 3. -/
opaque tempRawDraw : Nat → BitVec 16

/-- TEMP_OFS at the n-th query (R50, D13, D17). Log 3. -/
opaque tempOfsDraw : Nat → BitVec 16

/-- TEMP_SLOPE at the n-th query (R50, D13, D17). Log 3. -/
opaque tempSlopeDraw : Nat → BitVec 16

/-- The converted temperature at the n-th query where TEMP_RAW > TEMP_OFS: "a draw: any integer in [0, 2^20)"
(42_renderers.md R202, D14). Log 5. -/
opaque kelvDraw : Nat → BitVec 20

/-- Whether the TICK strobe comes at the n-th query of the strobes (60_exceptions.md R263, D18). Log 2. -/
opaque tickStrobe : Nat → Bool

/-- Whether the RESET strobe comes at the n-th query of the strobes (70_reset_and_hazards.md R290, R292). Log 2. -/
opaque resetStrobe : Nat → Bool

end Sys2Proof.Config
end

