-- ==== Sys2Proof/Machine/Params.lean ====
section
/-! DEFINITION. The implementation parameters of 00_scope.md R7, at the spec's reference values (D2), and the default
glyph table of 20_memory.md R72 (D7). -/

namespace Sys2Proof.Machine

/-- TICKS_PER_HALF (R7). -/
def ticksPerHalf : Nat := 32
/-- HALF_PER_MIN (R7). -/
def halfPerMin : Nat := 120
/-- MIN_PER_HOUR (R7). -/
def minPerHour : Nat := 60
/-- HALF_PER_HOUR (R7). -/
def halfPerHour : Nat := 7200
/-- HOURS_PER_DAY (R7). -/
def hoursPerDay : Nat := 24
/-- DAY_LEN (R7). -/
def dayLen : Nat := 172800
/-- NORMAL_BELOW (R7). -/
def normalBelow : Nat := 108
/-- VOLT_AT (R7). -/
def voltAt : Nat := 108
/-- TEMP_AT (R7). -/
def tempAt : Nat := 114
/-- TEMP_BIAS (R7). -/
def tempBias : Nat := 0x0800
/-- TEMP_SHIFT (R7). -/
def tempShift : Nat := 12
/-- KELVIN_AT_0C (R7). -/
def kelvinAt0C : Nat := 273

/-- The default GLYPH_ROM of 20_memory.md R72: bit 0 = segment a ... bit 6 = segment g. Codes 0 to 14 in R71's order;
entry 15 is unspecified (R73). Log 7, log 8. -/
def defaultGlyph (g : BitVec 4) : BitVec 7 :=
  match g.toNat with
  | 0 => 0x3F#7
  | 1 => 0x06#7
  | 2 => 0x5B#7
  | 3 => 0x4F#7
  | 4 => 0x66#7
  | 5 => 0x6D#7
  | 6 => 0x7D#7
  | 7 => 0x07#7
  | 8 => 0x7F#7
  | 9 => 0x6F#7
  | 10 => 0x00#7
  | 11 => 0x40#7
  | 12 => 0x63#7
  | 13 => 0x39#7
  | 14 => 0x3E#7
  | _ => Config.romEntry15

end Sys2Proof.Machine
end

