-- ==== Sys2Proof/Word.lean ====
section
/-! DEFINITION. The micro-operation word (30_encoding.md R100). -/

namespace Sys2Proof

/-- One micro-operation word: 16 bits, bit 0 the least significant (R10, R100). -/
abbrev Word := BitVec 16

end Sys2Proof
end

