-- ==== Sys2Proof/Syntax.lean ====
section
/-! DEFINITION. The micro-operations, one constructor per row of spec/opcode_table.json, and the segment driver's two
writes, into which a renderer expands. -/

namespace Sys2Proof

/-- The micro-operations (30_encoding.md R101, R103). An operand has the width of its field, so that a term can also
be one of the reserved forms of R110 (d) and (e); `Instr.wf` tells them apart. -/
inductive Instr where
  /-- TICK, 0x1000 (R130). -/
  | tick
  /-- RESET, 0x2000 (R290). -/
  | reset
  /-- PHASE_INV, 0x3000 (R135). -/
  | phaseInv
  /-- TCNT_STEP, 0x4000 (R150). -/
  | tcntStep
  /-- TOD_INC, 0x5000 (R153). -/
  | todInc
  /-- PHASE_IDX, 0x6000 (R156). -/
  | phaseIdx
  /-- BTN_SAMPLE, 0x7000 (R158). -/
  | btnSample
  /-- ADJ_MIN, 0x8000 (R162). -/
  | adjMin
  /-- ADJ_HOUR, 0x9000 (R166). -/
  | adjHour
  /-- SELECT, 0xA000 (R170). -/
  | select
  /-- REND_TIME, 0xB001 (R190). -/
  | rendTime
  /-- REND_VOLT, 0xB002 (R195). -/
  | rendVolt
  /-- REND_TEMP, 0xB003 (R200). -/
  | rendTemp
  /-- SEGWR slot, g, dp: 0xC000 with slot in 6:5, dp in 4, g in 3:0 (R230). -/
  | segwr (slot : BitVec 2) (g : BitVec 4) (dp : Bool)
  /-- COLWR v: 0xD000 with v in bit 0 (R234). -/
  | colwr (v : Bool)
deriving DecidableEq, Repr

/-- The segment driver's two writes: each renderer "expands into four SEGWR and one COLWR" (42_renderers.md, opening). -/
inductive DriverOp where
  | segwr (slot : BitVec 2) (g : BitVec 4) (dp : Bool)
  | colwr (v : Bool)
deriving DecidableEq, Repr

/-- The micro-operation a driver write is (R230, R234). -/
def DriverOp.toInstr : DriverOp → Instr
  | .segwr slot g dp => .segwr slot g dp
  | .colwr v => .colwr v

end Sys2Proof
end

