-- ==== Sys2Proof/WellFormed.lean ====
section
/-! DEFINITION. Which terms of `Instr` are micro-operations: the SEGWR constraints of 30_encoding.md R105. -/

namespace Sys2Proof

/-- R105: g names a glyph (0..14), and dp = 1 only with slot = 1. -/
def segwrWf (slot : BitVec 2) (g : BitVec 4) (dp : Bool) : Bool :=
  g != 15#4 && (!dp || slot == 1#2)

/-- Every other micro-operation has no constraint on its operands (R101, R102). -/
def Instr.wf : Instr → Bool
  | .tick => true
  | .reset => true
  | .phaseInv => true
  | .tcntStep => true
  | .todInc => true
  | .phaseIdx => true
  | .btnSample => true
  | .adjMin => true
  | .adjHour => true
  | .select => true
  | .rendTime => true
  | .rendVolt => true
  | .rendTemp => true
  | .segwr slot g dp => segwrWf slot g dp
  | .colwr _ => true

end Sys2Proof
end

