-- ==== Sys2Proof/Decode.lean ====
section
/-! DEFINITION. The decoder, total on all 65536 words and refusing by name (30_encoding.md R104, R110), and the encoder
(R101, R103). -/

namespace Sys2Proof

/-- Why a word is reserved, in the order of R110. -/
inductive DecodeError where
  /-- R110 (a): major opcode 0x0, 0xE or 0xF. -/
  | reservedOp
  /-- R110 (b): a listed opcode whose must-be-zero field is not zero. -/
  | zeroField
  /-- R110 (c): Format R with r = 0. -/
  | rendererNone
  /-- R110 (d): Format S with g = 15. -/
  | glyphReserved
  /-- R110 (e): Format S with dp = 1 and slot not 1. -/
  | dpOutsideSlot1
deriving DecidableEq, Repr

/-- Bits 15:12, the major opcode of every format (R100). -/
def opField (w : Word) : BitVec 4 := w.extractLsb' 12 4

/-- Format N (R101): bits 11:0 must be zero. -/
def decodeN (w : Word) (i : Instr) : Except DecodeError Instr :=
  if w.extractLsb' 0 12 = 0#12 then .ok i else .error .zeroField

/-- Format R (R101, R106): bits 11:2 must be zero; r = w[1:0] picks the renderer. -/
def decodeR (w : Word) : Except DecodeError Instr :=
  if w.extractLsb' 2 10 = 0#10 then
    match (w.extractLsb' 0 2).toNat with
    | 1 => .ok .rendTime
    | 2 => .ok .rendVolt
    | 3 => .ok .rendTemp
    | _ => .error .rendererNone
  else .error .zeroField

/-- The reserved forms of SEGWR, if the operands are one (R110 (d), (e)). -/
def segwrReserved (slot : BitVec 2) (g : BitVec 4) (dp : Bool) : Option DecodeError :=
  if g = 15#4 then some .glyphReserved
  else if dp = true ∧ slot ≠ 1#2 then some .dpOutsideSlot1
  else none

/-- Format S (R101, R102): slot = w[6:5], dp = w[4], g = w[3:0], bits 11:7 zero. -/
def decodeS (w : Word) : Except DecodeError Instr :=
  if w.extractLsb' 7 5 = 0#5 then
    let slot := w.extractLsb' 5 2
    let dp := w.getLsbD 4
    let g := w.extractLsb' 0 4
    match segwrReserved slot g dp with
    | none => .ok (.segwr slot g dp)
    | some e => .error e
  else .error .zeroField

/-- Format C (R101, R102): v = w[0], bits 11:1 zero. -/
def decodeC (w : Word) : Except DecodeError Instr :=
  if w.extractLsb' 1 11 = 0#11 then .ok (.colwr (w.getLsbD 0)) else .error .zeroField

/-- The opcode map of R103. "Decoding reads no state" (R104). -/
def decode (w : Word) : Except DecodeError Instr :=
  match (opField w).toNat with
  | 1 => decodeN w .tick
  | 2 => decodeN w .reset
  | 3 => decodeN w .phaseInv
  | 4 => decodeN w .tcntStep
  | 5 => decodeN w .todInc
  | 6 => decodeN w .phaseIdx
  | 7 => decodeN w .btnSample
  | 8 => decodeN w .adjMin
  | 9 => decodeN w .adjHour
  | 10 => decodeN w .select
  | 11 => decodeR w
  | 12 => decodeS w
  | 13 => decodeC w
  | _ => .error .reservedOp

/-- The instruction the decoder reads from an instruction whose bits are w: every micro-operation is one 16-bit word
(R100), so a number of more than 16 bits is no instruction, and nbits adds nothing. -/
def decodeTableWord (_nbits w : Nat) : Option Instr :=
  if w < 2 ^ 16 then
    match decode (BitVec.ofNat 16 w) with
    | .ok i => some i
    | .error _ => none
  else none

/-- Format S of R230: 0xC000 | slot << 5 | dp << 4 | g. -/
def encodeSegwr (slot : BitVec 2) (g : BitVec 4) (dp : Bool) : Word :=
  0xC000#16 ||| (slot.setWidth 16 <<< 5) ||| ((BitVec.ofBool dp).setWidth 16 <<< 4) ||| g.setWidth 16

/-- Format C of R234: 0xD000 | v. -/
def encodeColwr (v : Bool) : Word :=
  0xD000#16 ||| (BitVec.ofBool v).setWidth 16

/-- The word of a micro-operation (R103). -/
def encode : Instr → Word
  | .tick => 0x1000#16
  | .reset => 0x2000#16
  | .phaseInv => 0x3000#16
  | .tcntStep => 0x4000#16
  | .todInc => 0x5000#16
  | .phaseIdx => 0x6000#16
  | .btnSample => 0x7000#16
  | .adjMin => 0x8000#16
  | .adjHour => 0x9000#16
  | .select => 0xA000#16
  | .rendTime => 0xB001#16
  | .rendVolt => 0xB002#16
  | .rendTemp => 0xB003#16
  | .segwr slot g dp => encodeSegwr slot g dp
  | .colwr v => encodeColwr v

end Sys2Proof
end

