-- ==== Sys2Proof/Machine/State.lean ====
section
/-! DEFINITION. The state of the block (10_state.md), the parameters the step relation takes (R53), the harness side of
the model, the ways a step can stop, and the state after reset. -/

namespace Sys2Proof.Machine

/-- The renderer choice of SELECT (10_state.md R44). -/
inductive RSel where
  /-- Code 0: no renderer call. -/
  | none
  /-- Code 1. -/
  | time
  /-- Code 2. -/
  | volt
  /-- Code 3. -/
  | temp
deriving DecidableEq, Repr

/-- The events the block appends to its history (10_state.md R52). -/
inductive Event where
  /-- EvBtn, a button query, by BTN_SAMPLE. -/
  | evBtn
  /-- EvMeasV, a voltage query, by REND_VOLT. -/
  | evMeasV
  /-- EvMeasT, a temperature query, by REND_TEMP. -/
  | evMeasT
deriving DecidableEq, Repr

/-- The transient working registers, by name (10_state.md R45). -/
inductive Transient where
  | bnd
  | pidx
  | bm
  | bh
  | rsel
  | kelv
deriving DecidableEq, Repr

/-- What the environment has fixed at the input ports (10_state.md R50): `some v` after the directive `.set PORT = v`
(30_encoding.md R113), every Sample of the port answering v from then on; `none`, every Sample a draw. The strobes TICK
and RESET start steps and are not sampled. Log 3. -/
structure Ports where
  /-- BTN_MIN, 1 = minutes button asserted. -/
  btnMin : Option Bool
  /-- BTN_HOUR, 1 = hours button asserted. -/
  btnHour : Option Bool
  /-- VOLT_IN, 16 bits unsigned, decivolts. -/
  voltIn : Option (BitVec 16)
  /-- TEMP_RAW, 16 bits unsigned. -/
  tempRaw : Option (BitVec 16)
  /-- TEMP_OFS, 16 bits unsigned. -/
  tempOfs : Option (BitVec 16)
  /-- TEMP_SLOPE, 16 bits unsigned. -/
  tempSlope : Option (BitVec 16)
deriving DecidableEq, Repr

/-- The directive `.set PORT = value` (30_encoding.md R113), one constructor per sampled port. -/
inductive PortSetting where
  | btnMin (v : Bool)
  | btnHour (v : Bool)
  | voltIn (v : BitVec 16)
  | tempRaw (v : BitVec 16)
  | tempOfs (v : BitVec 16)
  | tempSlope (v : BitVec 16)
deriving DecidableEq, Repr

/-- What a harness hands the block: a micro-operation word, or a `.set` directive (30_encoding.md R111, R113). -/
inductive EnvItem where
  | word (w : Word)
  | set (p : PortSetting)
deriving DecidableEq, Repr

/-- The state. Fields TCNT to `history` are the spec's (10_state.md R32); `cfg12h` and `rom` are the parameters of
R53; the rest are the model's own. LINES (R51) and PAR (R42) are views of LATCH, not fields. -/
structure State where
  /-- TCNT, the tick count within the current half-second (R33). -/
  tcnt : BitVec 5
  /-- TOD, the half-second counter of the day (R35). -/
  tod : BitVec 18
  /-- LATCH, the display segment output latch (R37, R38). -/
  latch : BitVec 32
  /-- BND (R43), `none` when it holds no value (R45). -/
  bnd : Option Bool
  /-- PIDX (R45), `none` when it holds no value. -/
  pidx : Option (BitVec 7)
  /-- BM (R43), `none` when it holds no value (R45). -/
  bm : Option Bool
  /-- BH (R43), `none` when it holds no value (R45). -/
  bh : Option Bool
  /-- RSEL (R44), `none` when it holds no value (R45). -/
  rsel : Option RSel
  /-- KELV (R45), `none` when it holds no value. -/
  kelv : Option (BitVec 20)
  /-- The input ports' fixed answers (R50, R113). -/
  ports : Ports
  /-- The event history, oldest first (R52). -/
  history : List Event
  /-- CFG_12H (R53), a parameter: nothing writes it. Log 6. -/
  cfg12h : Bool
  /-- GLYPH_ROM (R53, 20_memory.md R72), a parameter: the entries that differ from the default table, in canonical
  form (`romWf`). Log 7. -/
  rom : List Host.Cell
  /-- The MODEL's own: the harness items not yet run. Log 1. -/
  queue : List EnvItem
  /-- The MODEL's own: how many queries the environment has answered, the argument of every draw. Log 4. -/
  draws : Nat
  /-- The MODEL's own: whether a word has run since the launch state. Log 12. -/
  launched : Bool
deriving DecidableEq, Repr

/-- "The block raises no synchronous exception. No micro-operation has a fault" (60_exceptions.md R260): there is no
fault, so the type has no constructor. Safe: nothing stops this way. -/
inductive Fault where
deriving DecidableEq, Repr

/-- What the model gives no meaning to. None is a hardware event (60_exceptions.md R260). -/
inductive Refusal where
  /-- Raised by `exec` for an instruction without a meaning yet; no arm raises it. Safe. -/
  | notModelled (mnemonic : String)
  /-- Raised by `step` for a reserved word and by SEGWR for a reserved form (30_encoding.md R111); the reason is R110's.
  The recorded refusal of R111. Safe: the hardware has no way to issue one. -/
  | reservedWord (w : Word) (why : DecodeError)
  /-- Raised by a read of a transient register that holds no value: "reading it is refused, never zero" (10_state.md R45;
  70_reset_and_hazards.md R307, 92_eei_decisions.md D27, 93_implementation_defined.md I16). Safe: the TICK microprogram
  never makes one. -/
  | unwrittenTransient (r : Transient)
  /-- Raised by `step` in a launch state with TOD outside 0..172799 (10_state.md R34). Safe: no reachable state. -/
  | launchOutOfRange
  /-- Raised by `step` in a launch state whose LATCH breaks 10_state.md R57 (92_eei_decisions.md D29,
  93_implementation_defined.md I17; the `.state` of 30_encoding.md R113). Safe: no reachable state. Log 12. -/
  | launchUnreachable
deriving DecidableEq, Repr

/-- The reset values of 10_state.md R56; the parameters and the model's own fields as logs 1, 3, 4, 6, 7 and 12 say. -/
def State.reset : State where
  tcnt := 0#5
  tod := 0#18
  latch := 0#32
  bnd := .none
  pidx := .none
  bm := .none
  bh := .none
  rsel := .none
  kelv := .none
  ports := ⟨.none, .none, .none, .none, .none, .none⟩
  history := []
  cfg12h := Config.cfg12hBuild
  rom := []
  queue := []
  draws := 0
  launched := false

end Sys2Proof.Machine
end

