-- ==== Sys2Proof/Machine/Operands.lean ====
section
/-! DEFINITION. The numbers the micro-operations compute: the time-of-day fields and updates (00_scope.md R15,
41_scheduler.md), glyph codes (20_memory.md R71), the temperature conversion (42_renderers.md R202), and the driver
writes each renderer issues. Arithmetic is on mathematical integers (00_scope.md R11). -/

namespace Sys2Proof.Machine

/-- hour(T) = T div 7200 (R15). -/
def hourOf (t : Nat) : Nat := t / halfPerHour

/-- minute(T) = (T mod 7200) div 120 (R15). -/
def minuteOf (t : Nat) : Nat := t % halfPerHour / halfPerMin

/-- unit(T) = T mod 120 (R15). -/
def unitOf (t : Nat) : Nat := t % halfPerMin

/-- hourblock(T) = hour(T) x 7200 (R15). -/
def hourBlock (t : Nat) : Nat := hourOf t * halfPerHour

/-- The value TOD_INC writes (R153). -/
def todIncValue (tod : BitVec 18) : BitVec 18 := BitVec.ofNat 18 ((tod.toNat + 1) % dayLen)

/-- The value PHASE_IDX writes (R156). -/
def phaseIdxValue (tod : BitVec 18) : BitVec 7 := BitVec.ofNat 7 (tod.toNat % halfPerMin)

/-- The value ADJ_MIN writes (R162): the next minute of the same hour, at unit 0. -/
def adjMinValue (tod : BitVec 18) : BitVec 18 :=
  BitVec.ofNat 18 (hourBlock tod.toNat + (minuteOf tod.toNat + 1) % minPerHour * halfPerMin)

/-- The value ADJ_HOUR writes (R166). -/
def adjHourValue (tod : BitVec 18) : BitVec 18 := BitVec.ofNat 18 ((tod.toNat + halfPerHour) % dayLen)

/-- The hour shown (R191). -/
def hdisp (cfg12h : Bool) (h : Nat) : Nat :=
  if cfg12h then (if h % 12 = 0 then 12 else h % 12) else h

/-- The glyph code of a decimal digit, 0..9: its code is n (00_scope.md R14). -/
def digit (n : Nat) : BitVec 4 := BitVec.ofNat 4 n

/-- G_SPACE (20_memory.md R71). -/
def gSpace : BitVec 4 := 10#4
/-- G_MINUS (R71). -/
def gMinus : BitVec 4 := 11#4
/-- G_DEGREE (R71). -/
def gDegree : BitVec 4 := 12#4
/-- G_C (R71). -/
def gC : BitVec 4 := 13#4
/-- G_V (R71). -/
def gV : BitVec 4 := 14#4

/-- tconv of R202: exact for ofs >= raw; else the draw handed in (log 5). -/
def tconv (ofs raw slope : BitVec 16) (draw : BitVec 20) : BitVec 20 :=
  if raw.toNat ≤ ofs.toNat then
    BitVec.ofNat 20 (((ofs.toNat - raw.toNat) * slope.toNat + tempBias) >>> tempShift)
  else draw

/-- c = abs(KELV - 273) (R200). -/
def celsiusMagnitude (kelv : BitVec 20) : Nat := ((kelv.toNat : Int) - (kelvinAt0C : Int)).natAbs

/-- The writes of REND_TIME, in order (R190). -/
def timeWrites (cfg12h : Bool) (tod : BitVec 18) : List DriverOp :=
  let hd := hdisp cfg12h (hourOf tod.toNat)
  let m := minuteOf tod.toNat
  [ .segwr 0#2 (digit (hd / 10)) false,
    .segwr 1#2 (digit (hd % 10)) false,
    .segwr 2#2 (digit (m / 10)) false,
    .segwr 3#2 (digit (m % 10)) false,
    .colwr (tod.getLsbD 0) ]

/-- The writes of REND_VOLT for the sample v, in order (R195). -/
def voltWrites (v : BitVec 16) : List DriverOp :=
  let w := v.toNat % 100
  [ .segwr 0#2 gSpace false,
    .segwr 1#2 (digit (w / 10)) true,
    .segwr 2#2 (digit (w % 10)) false,
    .segwr 3#2 gV false,
    .colwr false ]

/-- The writes of REND_TEMP for the converted temperature, in order (R200). -/
def tempWrites (kelv : BitVec 20) : List DriverOp :=
  let c := celsiusMagnitude kelv
  [ .segwr 0#2 (if kelv.toNat < kelvinAt0C then gMinus else digit (c / 10 % 10)) false,
    .segwr 1#2 (digit (c % 10)) false,
    .segwr 2#2 gDegree false,
    .segwr 3#2 gC false,
    .colwr false ]

end Sys2Proof.Machine
end

