-- ==== Sys2Proof/Machine/Flags.lean ====
section
/-! DEFINITION. The flags BND and RSEL (10_state.md R43, R44) and the views of LATCH: parity, absolute pattern,
visibility and the output lines (R41, R42, R51). -/

namespace Sys2Proof.Machine

/-- Whether TCNT reaches its bound at this TCNT_STEP, the value of BND (41_scheduler.md R150). -/
def tcntWraps (tcnt : BitVec 5) : Bool := tcnt.toNat + 1 == ticksPerHalf

/-- The value TCNT_STEP writes to TCNT (R150). -/
def tcntNext (tcnt : BitVec 5) : BitVec 5 :=
  if tcntWraps tcnt then 0#5 else BitVec.ofNat 5 (tcnt.toNat + 1)

/-- SELECT's choice with no button asserted (41_scheduler.md R170). -/
def scheduledRenderer (pidx : BitVec 7) : RSel :=
  if pidx.toNat < normalBelow then .time
  else if pidx.toNat = voltAt then .volt
  else if pidx.toNat = tempAt then .temp
  else .none

/-- The 2-bit code of a renderer choice, which is also the r field of Format R (10_state.md R44, 30_encoding.md R106). -/
def rselCode : RSel → BitVec 2
  | .none => 0#2
  | .time => 1#2
  | .volt => 2#2
  | .temp => 3#2

/-- PAR = LATCH[7] = BP0 (10_state.md R42). -/
def State.par (s : State) : Bool := s.latch.getLsbD 7

/-- BP0, LATCH[7] (R38). -/
def State.bp0 (s : State) : Bool := s.latch.getLsbD 7

/-- BP1, LATCH[31] (R38). -/
def State.bp1 (s : State) : Bool := s.latch.getLsbD 31

/-- LINES always equals LATCH (R51). -/
def State.lines (s : State) : BitVec 32 := s.latch

/-- visible(i) = LATCH[i] ^ LATCH[7] (R41). -/
def visible (latch : BitVec 32) (i : Nat) : Bool := Bool.xor (latch.getLsbD i) (latch.getLsbD 7)

/-- ABS = LATCH ^ (PAR = 1 ? 0xFFFFFFFF : 0) (R42). -/
def absOf (latch : BitVec 32) : BitVec 32 :=
  latch ^^^ (if latch.getLsbD 7 then 0xFFFFFFFF#32 else 0#32)

end Sys2Proof.Machine
end

