-- ==== Sys2Proof/Machine/Ops.lean ====
section
/-! DEFINITION. The named operations over the state: register writes, the transient registers' reads (10_state.md R45),
port samples and events (00_scope.md R12), the glyph ROM (20_memory.md R70) and the latch writes (43_segment_driver.md).
The block has no exception (60_exceptions.md R260), so there is no operation that takes one or returns from one. -/

namespace Sys2Proof.Machine

/-- What a micro-operation answers. -/
abbrev Answer := Host.Outcome State Fault Refusal

/-- One micro-operation after another in the same step: "each sees every earlier write" (20_memory.md R80). -/
def andThen (o : Answer) (k : State → Answer) : Answer :=
  match o with
  | .next s => k s
  | .fault r => .fault r
  | .refused r => .refused r

/-- A read of a transient register: "reading it is refused, never zero" where it holds no value (10_state.md R45). -/
def withTransient {α : Type} (r : Transient) (v : Option α) (k : α → Answer) : Answer :=
  match v with
  | .some a => k a
  | .none => .refused (.unwrittenTransient r)

/-! ### Register writes -/

/-- TCNT <- v. -/
def State.setTcnt (s : State) (v : BitVec 5) : State := { s with tcnt := v }
/-- TOD <- v. -/
def State.setTod (s : State) (v : BitVec 18) : State := { s with tod := v }
/-- LATCH <- v. -/
def State.setLatch (s : State) (v : BitVec 32) : State := { s with latch := v }
/-- BND <- v. -/
def State.setBnd (s : State) (v : Bool) : State := { s with bnd := .some v }
/-- PIDX <- v. -/
def State.setPidx (s : State) (v : BitVec 7) : State := { s with pidx := .some v }
/-- BM <- m, BH <- h. -/
def State.setButtons (s : State) (m h : Bool) : State := { s with bm := .some m, bh := .some h }
/-- RSEL <- v. -/
def State.setRsel (s : State) (v : RSel) : State := { s with rsel := .some v }
/-- KELV <- v. -/
def State.setKelv (s : State) (v : BitVec 20) : State := { s with kelv := .some v }

/-- Every transient register loses its value (10_state.md R45, R55; RESET, 70_reset_and_hazards.md R290). -/
def State.clearTransients (s : State) : State :=
  { s with bnd := .none, pidx := .none, bm := .none, bh := .none, rsel := .none, kelv := .none }

/-! ### Queries of the environment -/

/-- `Emit(ev)` appends to the event history (00_scope.md R12), and the query is over: the next one draws afresh. -/
def State.endQuery (s : State) (ev : Event) : State :=
  { s with history := s.history ++ [ev], draws := s.draws + 1 }

/-- Sample(BTN_MIN) (10_state.md R50). Log 3. -/
def State.sampleBtnMin (s : State) : Bool := s.ports.btnMin.getD (Config.btnMinDraw s.draws)
/-- Sample(BTN_HOUR) (R50). Log 3. -/
def State.sampleBtnHour (s : State) : Bool := s.ports.btnHour.getD (Config.btnHourDraw s.draws)
/-- Sample(VOLT_IN) (R50). Log 3. -/
def State.sampleVoltIn (s : State) : BitVec 16 := s.ports.voltIn.getD (Config.voltInDraw s.draws)
/-- Sample(TEMP_RAW) (R50). Log 3. -/
def State.sampleTempRaw (s : State) : BitVec 16 := s.ports.tempRaw.getD (Config.tempRawDraw s.draws)
/-- Sample(TEMP_OFS) (R50). Log 3. -/
def State.sampleTempOfs (s : State) : BitVec 16 := s.ports.tempOfs.getD (Config.tempOfsDraw s.draws)
/-- Sample(TEMP_SLOPE) (R50). Log 3. -/
def State.sampleTempSlope (s : State) : BitVec 16 := s.ports.tempSlope.getD (Config.tempSlopeDraw s.draws)

/-- The converted temperature of this query: the three temperature ports are one query (42_renderers.md R201, R202). -/
def State.sampleKelvin (s : State) : BitVec 20 :=
  tconv s.sampleTempOfs s.sampleTempRaw s.sampleTempSlope (Config.kelvDraw s.draws)

/-! ### The glyph ROM -/

/-- The byte listed at an address, if any. -/
def romLookup : List Host.Cell → Nat → Option (BitVec 8)
  | [], _ => .none
  | (a, b) :: rest, k => if a = k then .some b else romLookup rest k

/-- `MemRead(g, 7)` (20_memory.md R70): the listed entry's low seven bits, else the default table's (R72). -/
def romRead (rom : List Host.Cell) (g : BitVec 4) : BitVec 7 :=
  match romLookup rom g.toNat with
  | .some b => b.setWidth 7
  | .none => defaultGlyph g

/-- The cells from address lo on are in canonical form. -/
def romWfFrom (lo : Nat) : List Host.Cell → Bool
  | [] => true
  | (a, b) :: rest =>
    decide (lo ≤ a) && decide (a < 15) && decide (b.toNat < 128)
      && decide (b.setWidth 7 ≠ defaultGlyph (BitVec.ofNat 4 a)) && romWfFrom (a + 1) rest

/-- The canonical form of GLYPH_ROM: addresses strictly rising and below 15 (R71), seven-bit entries (R70), no entry
equal to the default table's. Log 7. -/
def romWf (rom : List Host.Cell) : Bool := romWfFrom 0 rom

/-- Put a byte at an address of a sorted list. -/
def romPut : List Host.Cell → Nat → BitVec 8 → List Host.Cell
  | [], k, b => [(k, b)]
  | (a, c) :: rest, k, b =>
    if k < a then (k, b) :: (a, c) :: rest
    else if k = a then (k, b) :: rest
    else (a, c) :: romPut rest k b

/-- Unlist an address. -/
def romDrop : List Host.Cell → Nat → List Host.Cell
  | [], _ => []
  | (a, c) :: rest, k => if a = k then rest else (a, c) :: romDrop rest k

/-- Choose another pattern for a glyph of the parameter GLYPH_ROM (R72, R53), before the block runs: no
micro-operation writes the ROM (R70). Entry 15 names no glyph (R71) and stays unspecified. -/
def romBurn (rom : List Host.Cell) (g : BitVec 4) (pat : BitVec 7) : List Host.Cell :=
  if g = 15#4 then rom
  else if pat = defaultGlyph g then romDrop rom g.toNat
  else romPut rom g.toNat (pat.setWidth 8)

/-! ### The latch -/

/-- `l[lo+n-1 : lo] <- v`, every other bit unchanged (00_scope.md R12). -/
def putBits (lo n : Nat) (v : BitVec n) (l : BitVec 32) : BitVec 32 :=
  (l &&& ~~~((BitVec.allOnes n).setWidth 32 <<< lo)) ||| (v.setWidth 32 <<< lo)

/-- `l[i] <- v`, every other bit unchanged. -/
def putBit (i : Nat) (v : Bool) (l : BitVec 32) : BitVec 32 := putBits i 1 (BitVec.ofBool v) l

/-- SEGWR on the latch: the slot's seven segment lines, and DP where the slot is 1 (43_segment_driver.md R230), written
absolutely (R231). -/
def latchSegwr (pat : BitVec 7) (slot : BitVec 2) (dp : Bool) (l : BitVec 32) : BitVec 32 :=
  let l1 := putBits (8 * slot.toNat) 7 pat l
  if slot = 1#2 then putBit 15 dp l1 else l1

/-- COLWR on the latch (R234). -/
def latchColwr (v : Bool) (l : BitVec 32) : BitVec 32 := putBit 23 v l

/-- One driver write on the latch. -/
def latchDriver (rom : List Host.Cell) (op : DriverOp) (l : BitVec 32) : BitVec 32 :=
  match op with
  | .segwr slot g dp => latchSegwr (romRead rom g) slot dp l
  | .colwr v => latchColwr v l

/-- The driver writes in order. -/
def latchDrivers (rom : List Host.Cell) : List DriverOp → BitVec 32 → BitVec 32
  | [], l => l
  | op :: rest, l => latchDrivers rom rest (latchDriver rom op l)

/-- The driver writes in order, on the state. -/
def State.drive (s : State) (ops : List DriverOp) : State := s.setLatch (latchDrivers s.rom ops s.latch)

end Sys2Proof.Machine
end

