-- ==== Sys2Proof/Machine/SegmentDriver.lean ====
section
/-! DEFINITION. The segment driver (43_segment_driver.md): SEGWR, COLWR. -/

namespace Sys2Proof.Machine

/-- SEGWR (R230). A reserved form is refused with R110's reason (30_encoding.md R111). -/
def execSegwr (slot : BitVec 2) (g : BitVec 4) (dp : Bool) (s : State) : Answer :=
  match segwrReserved slot g dp with
  | .none => .next (s.drive [.segwr slot g dp])
  | .some why => .refused (.reservedWord (encodeSegwr slot g dp) why)

/-- COLWR (R234). -/
def execColwr (v : Bool) (s : State) : Answer := .next (s.drive [.colwr v])

end Sys2Proof.Machine
end

