-- ==== Sys2Proof/Machine/PhaseEngine.lean ====
section
/-! DEFINITION. The line-inversion engine: PHASE_INV (40_phase_engine.md R135). -/

namespace Sys2Proof.Machine

/-- "LATCH <- ~LATCH, all 32 bits at once" (R135). -/
def phaseInv (s : State) : State := s.setLatch (~~~s.latch)

/-- PHASE_INV (R135). -/
def execPhaseInv (s : State) : Answer := .next (phaseInv s)

end Sys2Proof.Machine
end

