-- ==== Sys2Proof/Machine/Renderers.lean ====
section
/-! DEFINITION. The glyph multiplexer (42_renderers.md): REND_TIME, REND_VOLT, REND_TEMP. -/

namespace Sys2Proof.Machine

/-- Hours, minutes and the colon of TOD (R190). -/
def rendTime (s : State) : State := s.drive (timeWrites s.cfg12h s.tod)

/-- One voltage query, and its two least significant digits (R195). -/
def rendVolt (s : State) : State := (s.endQuery .evMeasV).drive (voltWrites s.sampleVoltIn)

/-- One temperature query (R201), its conversion into KELV and the display of KELV (R200). -/
def rendTemp (s : State) : State :=
  ((s.endQuery .evMeasT).setKelv s.sampleKelvin).drive (tempWrites s.sampleKelvin)

/-- REND_TIME (R190). -/
def execRendTime (s : State) : Answer := .next (rendTime s)

/-- REND_VOLT (R195). -/
def execRendVolt (s : State) : Answer := .next (rendVolt s)

/-- REND_TEMP (R200). -/
def execRendTemp (s : State) : Answer := .next (rendTemp s)

end Sys2Proof.Machine
end

