-- ==== Sys2Proof/Machine/Scheduler.lean ====
section
/-! DEFINITION. The tick scheduler and the time-of-day counter (41_scheduler.md): TCNT_STEP, TOD_INC, PHASE_IDX,
BTN_SAMPLE, ADJ_MIN, ADJ_HOUR, SELECT. -/

namespace Sys2Proof.Machine

/-- TCNT advances modulo its bound, and BND says whether it wrapped (R150). -/
def tcntStep (s : State) : State := (s.setTcnt (tcntNext s.tcnt)).setBnd (tcntWraps s.tcnt)

/-- TOD advances by one unit, modulo the day (R153). -/
def todInc (s : State) : State := s.setTod (todIncValue s.tod)

/-- PIDX is the unit within the minute (R156). -/
def phaseIdx (s : State) : State := s.setPidx (phaseIdxValue s.tod)

/-- Both buttons are sampled in one query (R158). -/
def btnSample (s : State) : State := (s.setButtons s.sampleBtnMin s.sampleBtnHour).endQuery .evBtn

/-- TOD snaps to the next minute of the same hour (R162). -/
def adjMin (s : State) : State := s.setTod (adjMinValue s.tod)

/-- TOD advances by one hour, modulo the day (R166). -/
def adjHour (s : State) : State := s.setTod (adjHourValue s.tod)

/-- SELECT's choice, first match wins; PIDX is read only where no button is asserted, as R170's pseudocode reads it.
Log 11. -/
def selectRenderer (s : State) : Answer :=
  withTransient .bm s.bm fun bm =>
    withTransient .bh s.bh fun bh =>
      if bm || bh then .next (s.setRsel .time)
      else withTransient .pidx s.pidx fun pidx => .next (s.setRsel (scheduledRenderer pidx))

/-- TCNT_STEP (R150). -/
def execTcntStep (s : State) : Answer := .next (tcntStep s)

/-- TOD_INC (R153). -/
def execTodInc (s : State) : Answer := .next (todInc s)

/-- PHASE_IDX (R156). -/
def execPhaseIdx (s : State) : Answer := .next (phaseIdx s)

/-- BTN_SAMPLE (R158). -/
def execBtnSample (s : State) : Answer := .next (btnSample s)

/-- ADJ_MIN (R162). -/
def execAdjMin (s : State) : Answer := .next (adjMin s)

/-- ADJ_HOUR (R166). -/
def execAdjHour (s : State) : Answer := .next (adjHour s)

/-- SELECT (R170). -/
def execSelect (s : State) : Answer := selectRenderer s

end Sys2Proof.Machine
end

