-- ==== Sys2Proof/Machine/Tick.lean ====
section
/-! DEFINITION. The two steps of the hardware: TICK (40_phase_engine.md R130) and RESET (70_reset_and_hazards.md R290). -/

namespace Sys2Proof.Machine

/-- The adjustment of R130: ADJ_MIN if BM = 1, else ADJ_HOUR if BH = 1. -/
def adjust (s : State) : Answer :=
  withTransient .bm s.bm fun bm =>
    if bm then .next (adjMin s)
    else withTransient .bh s.bh fun bh => if bh then .next (adjHour s) else .next s

/-- The renderer RSEL names; NONE: "no renderer call" (R130). -/
def render (s : State) : Answer :=
  withTransient .rsel s.rsel fun r =>
    match r with
    | .none => .next s
    | .time => .next (rendTime s)
    | .volt => .next (rendVolt s)
    | .temp => .next (rendTemp s)

/-- The boundary sequence, from TOD_INC through the renderer (R130, 41_scheduler.md R151). -/
def boundary (s : State) : Answer :=
  andThen (adjust (btnSample (phaseIdx (todInc s)))) fun s1 => andThen (selectRenderer s1) render

/-- The TICK sequence, from its first micro-operation (R130, R133). -/
def tickSequence (s : State) : Answer :=
  let s1 := tcntStep (phaseInv s)
  withTransient .bnd s1.bnd fun bnd => if bnd then boundary s1 else .next s1

/-- TICK (R130). The transient registers hold no value before the micro-operation of this TICK that writes them, and
none after the TICK (10_state.md R45, R55). -/
def execTick (s : State) : Answer :=
  andThen (tickSequence s.clearTransients) fun t => .next t.clearTransients

/-- RESET (70_reset_and_hazards.md R290): the counters and the latch to their reset values (10_state.md R56), the
transient registers without a value, the event history kept. -/
def execReset (s : State) : Answer :=
  .next (((s.setTcnt 0#5).setTod 0#18).setLatch 0#32).clearTransients

end Sys2Proof.Machine
end

