-- ==== Sys2Proof/Machine/Dispatch.lean ====
section
/-! DEFINITION. One arm per micro-operation (30_encoding.md R103). -/

namespace Sys2Proof.Machine

def exec (i : Instr) (s : State) : Host.Outcome State Fault Refusal :=
  match i with
  | .tick => Sys2Proof.Machine.execTick s
  | .reset => Sys2Proof.Machine.execReset s
  | .phaseInv => Sys2Proof.Machine.execPhaseInv s
  | .tcntStep => Sys2Proof.Machine.execTcntStep s
  | .todInc => Sys2Proof.Machine.execTodInc s
  | .phaseIdx => Sys2Proof.Machine.execPhaseIdx s
  | .btnSample => Sys2Proof.Machine.execBtnSample s
  | .adjMin => Sys2Proof.Machine.execAdjMin s
  | .adjHour => Sys2Proof.Machine.execAdjHour s
  | .select => Sys2Proof.Machine.execSelect s
  | .rendTime => Sys2Proof.Machine.execRendTime s
  | .rendVolt => Sys2Proof.Machine.execRendVolt s
  | .rendTemp => Sys2Proof.Machine.execRendTemp s
  | .segwr slot g dp => Sys2Proof.Machine.execSegwr slot g dp s
  | .colwr v => Sys2Proof.Machine.execColwr v s

end Sys2Proof.Machine
end

