-- ==== Sys2Proof/Machine/Harness.lean ====
section
/-! DEFINITION. Where the next word comes from: the harness queue (30_encoding.md R111, R113), else the environment's
strobes (60_exceptions.md R262 to R264); and the launch check (10_state.md R34, D29). Logs 1, 2, 12. -/

namespace Sys2Proof.Machine

/-- `.set PORT = value`: the environment answers every Sample of the port so from now on (R113). -/
def Ports.apply (p : Ports) : PortSetting → Ports
  | .btnMin v => { p with btnMin := .some v }
  | .btnHour v => { p with btnHour := .some v }
  | .voltIn v => { p with voltIn := .some v }
  | .tempRaw v => { p with tempRaw := .some v }
  | .tempOfs v => { p with tempOfs := .some v }
  | .tempSlope v => { p with tempSlope := .some v }

/-- The harness items up to and with the next word: the word if there is one, the items after it, and the ports with
the `.set` directives before it applied. -/
def nextItem : List EnvItem → Ports → Option Word × List EnvItem × Ports
  | [], p => (.none, [], p)
  | .set x :: rest, p => nextItem rest (p.apply x)
  | .word w :: rest, p => (.some w, rest, p)

/-- What the strobes start: "RESET and a tick at the same time: RESET is taken and the tick causes no step"
(60_exceptions.md R264); neither, no step. -/
def strobeWord (resetNow tickNow : Bool) : Option Word :=
  if resetNow then .some (encode .reset) else if tickNow then .some (encode .tick) else .none

/-- The next word, and the state it runs in. With no word from the harness the environment chooses whether a TICK or a
RESET comes (60_exceptions.md R263): a query of the strobes. -/
def fetch (s : State) : Option Word × State :=
  match nextItem s.queue s.ports with
  | (.some w, rest, p) => (.some w, { s with queue := rest, ports := p })
  | (.none, rest, p) =>
    (strobeWord (Config.resetStrobe s.draws) (Config.tickStrobe s.draws),
      { s with queue := rest, ports := p, draws := s.draws + 1 })

/-- R57 on the LATCH of a launch state: LATCH[7] = LATCH[31] = PAR, and PAR = the TICKs since RESET modulo 2, which is
TCNT modulo 2. -/
def latchReachable (s : State) : Bool := s.bp0 == s.bp1 && s.par == s.tcnt.getLsbD 0

/-- Why a launch state is refused, before anything runs in it: TOD out of range (10_state.md R34; TCNT >= 32 is no value
of its 5 bits), or a LATCH that breaks R57 (92_eei_decisions.md D29, 93_implementation_defined.md I17). A state that a word
has run from is no launch state. Log 12. -/
def launchRefusal (s : State) : Option Refusal :=
  if s.launched then .none
  else if dayLen ≤ s.tod.toNat then .some .launchOutOfRange
  else if latchReachable s then .none
  else .some .launchUnreachable

/-- The launch is over. -/
def State.markLaunched (s : State) : State := { s with launched := true }

/-- Put a word before the harness items. -/
def State.placeWord (s : State) (w : Word) : State := { s with queue := .word w :: s.queue }

end Sys2Proof.Machine
end

