-- ==== Sys2Proof/Machine/Step.lean ====
section
/-! DEFINITION. One step of the machine: the next word of the harness, or else the strobes' TICK or RESET, decoded and
run. Logs 1, 2, 12. -/

namespace Sys2Proof.Machine

/-- Run one word; a reserved word is refused (30_encoding.md R111). -/
def runWord (w : Word) (s : State) : Host.Outcome State Fault Refusal :=
  match decode w with
  | .error why => .refused (.reservedWord w why)
  | .ok i => exec i s.markLaunched

/-- One step. An unreachable launch state is refused (R34, D29), whatever would run in it. Where no word comes and no
strobe, the block "does nothing" (70_reset_and_hazards.md R291). -/
def step (s : State) : Host.Outcome State Fault Refusal :=
  match launchRefusal s with
  | .some why => .refused why
  | .none =>
    match fetch s with
    | (.none, s1) => .next s1
    | (.some w, s1) => runWord w s1

/-- s with the word w next in the harness queue. -/
def State.withFetchWord (s : State) (_nbits w : Nat) : State := s.placeWord (BitVec.ofNat 16 w)

end Sys2Proof.Machine
end

