-- ==== Sys2Proof/Machine/Assembly.lean ====
section
/-! DEFINITION. The assembler's operand forms, pseudo-instructions and test directives (30_encoding.md R112, R113), from
a parsed line to harness items. Log 16. -/

namespace Sys2Proof.Machine

/-- A glyph operand: a number or a glyph name (R112, 00_scope.md R14). -/
inductive AsmGlyph where
  | number (n : Nat)
  /-- G0 to G9. -/
  | digit (n : Fin 10)
  | space
  | minus
  | degree
  | celsius
  | vee
deriving DecidableEq, Repr

/-- The code of a glyph operand: "a number 0..14 or a glyph name" (R112). -/
def AsmGlyph.code : AsmGlyph → Option (BitVec 4)
  | .number n => if n < 15 then .some (BitVec.ofNat 4 n) else .none
  | .digit n => .some (Machine.digit n.val)
  | .space => .some gSpace
  | .minus => .some gMinus
  | .degree => .some gDegree
  | .celsius => .some gC
  | .vee => .some gV

/-- The directive `.state REG = value` (R113), one constructor per register that a reachable state may hold at a value of
its own: the transients hold none between steps (10_state.md R45, R55). -/
inductive StateSetting where
  | tcnt (n : Nat)
  | tod (n : Nat)
  | latch (n : Nat)
deriving DecidableEq, Repr

/-- A parsed line (R112, R113). -/
inductive AsmLine where
  /-- A mnemonic without operands. -/
  | plain (i : Instr)
  /-- SEGWR slot, glyph [, dp]. -/
  | segwr (slot : Nat) (glyph : AsmGlyph) (dp : Option Nat)
  /-- COLWR v. -/
  | colwr (v : Nat)
  /-- TICKS n. -/
  | ticks (n : Nat)
  /-- HALFSEC. -/
  | halfsec
  /-- MINUTE. -/
  | minute
  /-- SEGWR.DP slot, glyph: the table gives it for slot 1. -/
  | segwrDp (slot : Nat) (glyph : AsmGlyph)
  /-- .set PORT = value. -/
  | set (p : PortSetting)
  /-- .state REG = value. -/
  | state (p : StateSetting)
deriving DecidableEq, Repr

/-- A bit operand, 0 or 1 (R112). -/
def asmBit (n : Nat) : Option Bool :=
  match n with
  | 0 => .some false
  | 1 => .some true
  | _ => .none

/-- The word of SEGWR with parsed operands, if they form one that is not reserved (R105). -/
def asmSegwr (slot : Nat) (glyph : AsmGlyph) (dp : Nat) : Option (List EnvItem) :=
  match glyph.code, asmBit dp with
  | .some g, .some d =>
    if slot < 4 ∧ segwrWf (BitVec.ofNat 2 slot) g d = true then
      .some [.word (encodeSegwr (BitVec.ofNat 2 slot) g d)]
    else .none
  | _, _ => .none

/-- n copies of TICK (R113). -/
def ticksItems (n : Nat) : List EnvItem := List.replicate n (.word (encode .tick))

/-- Whether an instruction's line is a mnemonic without operands (R112). -/
def asmPlain : Instr → Bool
  | .segwr _ _ _ => false
  | .colwr _ => false
  | _ => true

/-- The items a line stands for (R112, R113): "An absent dp means 0". A `.state` stands for none. -/
def assemble : AsmLine → Option (List EnvItem)
  | .plain i => if asmPlain i then .some [.word (encode i)] else .none
  | .segwr slot glyph dp => asmSegwr slot glyph (dp.getD 0)
  | .colwr v => (asmBit v).map fun b => [.word (encodeColwr b)]
  | .ticks n => .some (ticksItems n)
  | .halfsec => .some (ticksItems 32)
  | .minute => .some (ticksItems 3840)
  | .segwrDp slot glyph => if slot = 1 then asmSegwr 1 glyph 1 else .none
  | .set p => .some [.set p]
  | .state _ => .some []

/-- The start state's registers while the `.state` lines are read. -/
structure StartRegs where
  tcnt : Nat
  tod : Nat
  latch : Nat
deriving DecidableEq, Repr

/-- Without a `.state` line a register starts at its reset value (10_state.md R56). Log 16. -/
def StartRegs.initial : StartRegs := ⟨0, 0, 0⟩

/-- One `.state` line. DESIGN CHOICE: of two `.state` lines for one register the last wins, and only the final values are
checked; R113 does not speak of a repeat. Log 16. -/
def StartRegs.apply (r : StartRegs) : StateSetting → StartRegs
  | .tcnt n => { r with tcnt := n }
  | .tod n => { r with tod := n }
  | .latch n => { r with latch := n }

/-- Whether a line's items hold a word. -/
def hasWord (items : List EnvItem) : Bool :=
  items.any fun x => match x with
    | .word _ => true
    | .set _ => false

/-- The registers a line fixes: "It is legal only before the first word" (R113). -/
def asmState (started : Bool) (r : StartRegs) (l : AsmLine) : Option StartRegs :=
  match l with
  | .state p => if started then .none else .some (r.apply p)
  | _ => .some r

/-- A program's start registers and items, if every line assembles. -/
def assembleFrom (started : Bool) (r : StartRegs) : List AsmLine → Option (StartRegs × List EnvItem)
  | [] => .some (r, [])
  | l :: rest =>
    match asmState started r l, assemble l with
    | .some r1, .some a =>
      (assembleFrom (started || hasWord a) r1 rest).map fun x => (x.1, a ++ x.2)
    | _, _ => .none

/-- A launch state with the given registers, with a program to run and a choice of CFG_12H. `step` refuses it where the
registers form no reachable state (10_state.md R34, D29). -/
def State.launch (cfg12h : Bool) (tcnt : BitVec 5) (tod : BitVec 18) (latch : BitVec 32) (items : List EnvItem) : State :=
  { State.reset with cfg12h := cfg12h, tcnt := tcnt, tod := tod, latch := latch, queue := items }

/-- Each value is one that its register holds in some reachable state (10_state.md R33, R34, R37). -/
def StartRegs.fits (r : StartRegs) : Bool :=
  decide (r.tcnt < ticksPerHalf) && decide (r.tod < dayLen) && decide (r.latch < 2 ^ 32)

/-- A whole program: its launch state, if every line assembles and its `.state` lines give a state that meets R34 and R57:
"only with a reachable state (10_state.md rule R57)" (R113). Log 12. -/
def launchProgram (cfg12h : Bool) (lines : List AsmLine) : Option State :=
  match assembleFrom false .initial lines with
  | .none => .none
  | .some (r, items) =>
    let s := State.launch cfg12h (BitVec.ofNat 5 r.tcnt) (BitVec.ofNat 18 r.tod) (BitVec.ofNat 32 r.latch) items
    if r.fits && (launchRefusal s).isNone then .some s else .none

end Sys2Proof.Machine
end

