-- ==== Sys2Proof/Safety.lean ====
section
/-! DEFINITION. What a good state is (10_state.md R34, R45, R57), and runs of TICKs, in the terms the statements use. -/

namespace Sys2Proof.Machine

/-- What every micro-operation keeps, run by the strobes or by a harness: TOD in range (R34, R35), BP0 = BP1 (R40),
PIDX in range where it holds a value (R45), GLYPH_ROM in canonical form (log 7). -/
structure Sound (s : State) : Prop where
  tod_lt : s.tod.toNat < dayLen
  bp_eq : s.bp0 = s.bp1
  pidx_lt : ∀ p, s.pidx = .some p → p.toNat < halfPerMin
  rom_wf : romWf s.rom = true

/-- No transient register holds a value: what stands between the steps of the hardware (R45, R55). -/
structure Settled (s : State) : Prop where
  bnd : s.bnd = .none
  pidx : s.pidx = .none
  bm : s.bm = .none
  bh : s.bh = .none
  rsel : s.rsel = .none
  kelv : s.kelv = .none

/-- The invariant of R57 on the hardware's own steps, TICK and RESET: the parity of the TICKs since RESET is that of
TCNT, because 32 is even. -/
structure Driven (s : State) : Prop where
  sound : Sound s
  settled : Settled s
  par_eq : s.par = s.tcnt.getLsbD 0

/-- Micro-operations, one after another (20_memory.md R80). -/
def runAll : List Instr → State → Answer
  | [], s => .next s
  | i :: rest, s => andThen (exec i s) (runAll rest)

/-- n TICKs, one after another. -/
def tickRun (n : Nat) (s : State) : Answer := runAll (List.replicate n .tick) s

/-- A state that `step` runs from: its launch is over, or it is a launch state that meets R34 and R57 (D29). Log 12. -/
def Launchable (s : State) : Prop :=
  s.launched = true ∨ (s.tod.toNat < 172800 ∧ s.bp0 = s.bp1 ∧ s.par = s.tcnt.getLsbD 0)

/-- At every boundary among the next n TICKs from s the buttons are at these levels: the levels the TICK samples
there, fixed by `.set` or drawn. -/
def ButtonsAtBoundaries (btnMin btnHour : Bool) (n : Nat) (s : State) : Prop :=
  ∀ k t, k < n → tickRun k s = .next t → t.tcnt.toNat = 31 → t.sampleBtnMin = btnMin ∧ t.sampleBtnHour = btnHour

/-- The micro-operations of a boundary TICK up to and with SELECT, with BM and BH as they are sampled (40_phase_engine.md
R133). -/
def boundaryPrefix (bm bh : Bool) : List Instr :=
  [.phaseInv, .tcntStep, .todInc, .phaseIdx, .btnSample] ++
    (if bm then [.adjMin] else if bh then [.adjHour] else []) ++ [.select]

/-- The renderer RSEL names, if any (R133). -/
def rendererCall : RSel → List Instr
  | .none => []
  | .time => [.rendTime]
  | .volt => [.rendVolt]
  | .temp => [.rendTemp]

/-- The state in which a renderer issues its first driver write: after its query and, for REND_TEMP, KELV
(42_renderers.md R195, R200). -/
def afterQuery (r : RSel) (s : State) : State :=
  match r with
  | .none => s
  | .time => s
  | .volt => { s with history := s.history ++ [.evMeasV], draws := s.draws + 1 }
  | .temp => { s with history := s.history ++ [.evMeasT], draws := s.draws + 1, kelv := .some s.sampleKelvin }

/-- The SEGWR and COLWR the renderer called in s issues, in order (42_renderers.md R190, R195, R200). -/
def issuedWrites (r : RSel) (s : State) : List DriverOp :=
  match r with
  | .none => []
  | .time => timeWrites s.cfg12h s.tod
  | .volt => voltWrites s.sampleVoltIn
  | .temp => tempWrites s.sampleKelvin

/-- The bits a renderer writes: the four slots, DP and COLON (42_renderers.md R206): all but BP0 and BP1. -/
def renderedBit (i : Nat) : Bool := i != 7 && i != 31

/-- A TICK from s writes nothing on the latch but the inversion: it is off the boundary, or its boundary selects NONE
(41_scheduler.md R172). -/
def OnlyInverts (s : State) : Prop :=
  s.tcnt.toNat = 31 → s.sampleBtnMin = false ∧ s.sampleBtnHour = false ∧
    108 < (s.tod.toNat + 1) % 172800 % 120 ∧ (s.tod.toNat + 1) % 172800 % 120 ≠ 114

/-- Run from s and from u, i leaves the same on every line a renderer writes, and s's backplanes. -/
def RendersAlike (i : Instr) (s u : State) : Prop :=
  ∃ t v, exec i s = .next t ∧ exec i u = .next v ∧
    (∀ b, b < 32 → renderedBit b = true → t.latch.getLsbD b = v.latch.getLsbD b) ∧ t.bp0 = s.bp0 ∧ t.bp1 = s.bp1

/-- A line that stands for at least one word (30_encoding.md R112, R113). -/
def YieldsWord (l : AsmLine) : Prop := ∃ items w, assemble l = .some items ∧ EnvItem.word w ∈ items

/-- The value a `.state` line gives TCNT, if it is for TCNT. -/
def tcntSetting : AsmLine → Option Nat
  | .state (.tcnt n) => .some n
  | _ => .none

/-- The value a `.state` line gives TOD, if it is for TOD. -/
def todSetting : AsmLine → Option Nat
  | .state (.tod n) => .some n
  | _ => .none

/-- The value a `.state` line gives LATCH, if it is for LATCH. -/
def latchSetting : AsmLine → Option Nat
  | .state (.latch n) => .some n
  | _ => .none

/-- The last value that lines give a register, else 0 (log 16). -/
def lastSetting (f : AsmLine → Option Nat) (lines : List AsmLine) : Nat := (lines.filterMap f).getLast?.getD 0

/-- Slot `slot` of the latch carries, bit for bit (10_state.md R39), the pattern of the glyph with this code, which is
no reserved code (20_memory.md R71). -/
def SlotShows (rom : List Host.Cell) (latch : BitVec 32) (slot code : Nat) : Prop :=
  code < 15 ∧ ∀ k, k < 7 → latch.getLsbD (8 * slot + k) = (romRead rom (BitVec.ofNat 4 code)).getLsbD k

end Sys2Proof.Machine
end

