-- ==== Sys2Proof/Certificates/Slice0/Obligations.lean ====
section
/-! DEFINITION. The statements for the provers. A sentence of a docstring that names a log entry marks a clause that is
the model's choice, not a rule of the spec. -/

open Sys2Proof Sys2Proof.Machine

/-! ### Encoding (30_encoding.md) -/

/-- Decode and encode agree in both directions: a word decodes to i exactly when i is well-formed and is encoded as
that word. -/
def Obligations.DecodeInvertsEncode : Prop :=
  ∀ (w : Word) (i : Instr), decode w = .ok i ↔ i.wf = true ∧ encode i = w

/-- R110: the reserved words, (a) to (e), by arithmetic on the word, are the words the decoder refuses. -/
def Obligations.ReservedWordsAreRefused : Prop :=
  ∀ w : Word, (∃ why, decode w = .error why) ↔
    (w.toNat / 4096 = 0 ∨ w.toNat / 4096 = 14 ∨ w.toNat / 4096 = 15) ∨
    ((1 ≤ w.toNat / 4096 ∧ w.toNat / 4096 ≤ 10 ∧ w.toNat % 4096 ≠ 0) ∨
      (w.toNat / 4096 = 11 ∧ w.toNat % 4096 / 4 ≠ 0) ∨
      (w.toNat / 4096 = 12 ∧ w.toNat % 4096 / 128 ≠ 0) ∨
      (w.toNat / 4096 = 13 ∧ w.toNat % 4096 / 2 ≠ 0)) ∨
    w.toNat = 0xB000 ∨
    (w.toNat / 4096 = 12 ∧ w.toNat % 16 = 15) ∨
    (w.toNat / 4096 = 12 ∧ w.toNat / 16 % 2 = 1 ∧ w.toNat / 32 % 4 ≠ 1)

/-- R103: which word each micro-operation has, every row of the opcode map. -/
def Obligations.OpcodeMap : Prop :=
  ∀ w : Word,
    (decode w = .ok .tick ↔ w.toNat = 0x1000) ∧ (decode w = .ok .reset ↔ w.toNat = 0x2000) ∧
    (decode w = .ok .phaseInv ↔ w.toNat = 0x3000) ∧ (decode w = .ok .tcntStep ↔ w.toNat = 0x4000) ∧
    (decode w = .ok .todInc ↔ w.toNat = 0x5000) ∧ (decode w = .ok .phaseIdx ↔ w.toNat = 0x6000) ∧
    (decode w = .ok .btnSample ↔ w.toNat = 0x7000) ∧ (decode w = .ok .adjMin ↔ w.toNat = 0x8000) ∧
    (decode w = .ok .adjHour ↔ w.toNat = 0x9000) ∧ (decode w = .ok .select ↔ w.toNat = 0xA000) ∧
    (decode w = .ok .rendTime ↔ w.toNat = 0xB001) ∧ (decode w = .ok .rendVolt ↔ w.toNat = 0xB002) ∧
    (decode w = .ok .rendTemp ↔ w.toNat = 0xB003) ∧
    (∀ slot g dp, decode w = .ok (.segwr slot g dp) ↔
      g.toNat < 15 ∧ (dp = true → slot.toNat = 1) ∧
        w.toNat = 0xC000 + 32 * slot.toNat + 16 * dp.toNat + g.toNat) ∧
    (∀ v, decode w = .ok (.colwr v) ↔ w.toNat = 0xD000 + v.toNat)

/-- A few words of the spec's own examples (R105, R103) decode to what they stand for. -/
def Obligations.ExampleWordsDecode : Prop :=
  decode 0xC00A#16 = .ok (.segwr 0#2 10#4 false) ∧ decode 0xC033#16 = .ok (.segwr 1#2 3#4 true) ∧
  decode 0xC043#16 = .ok (.segwr 2#2 3#4 false) ∧ decode 0xC06E#16 = .ok (.segwr 3#2 14#4 false) ∧
  decode 0x1000#16 = .ok .tick ∧ decode 0x2000#16 = .ok .reset ∧ decode 0xB003#16 = .ok .rendTemp ∧
  decode 0xD001#16 = .ok (.colwr true)

/-- R106: the r field of Format R is the RSEL code; r = 0 is no operation. -/
def Obligations.RendererFieldIsTheRselCode : Prop :=
  ∀ r : RSel, decode (0xB000#16 ||| (rselCode r).setWidth 16) =
    match r with
    | .none => .error .rendererNone
    | .time => .ok .rendTime
    | .volt => .ok .rendVolt
    | .temp => .ok .rendTemp

/-! ### The step (logs 1, 2, 12) -/

/-- When the next harness word decodes to i, the step is exec of i on the state with that word taken from the queue and
the launch over. In a launch state TOD must be in range (R34) and the LATCH reachable (D29; log 12). -/
def Obligations.StepRunsDecodedWord : Prop :=
  ∀ (s : State) (w : Word) (rest : List EnvItem) (i : Instr),
    s.queue = .word w :: rest → decode w = .ok i → Launchable s →
    step s = exec i { s with queue := rest, launched := true }

/-- R111: a model that is handed a reserved word refuses it, with the reason. -/
def Obligations.StepRefusesReservedWord : Prop :=
  ∀ (s : State) (w : Word) (rest : List EnvItem) (why : DecodeError),
    s.queue = .word w :: rest → decode w = .error why → Launchable s →
    step s = .refused (.reservedWord w why)

/-- R34: a launch state with TOD out of range is refused. -/
def Obligations.LaunchOutOfRangeIsRefused : Prop :=
  ∀ s : State, s.launched = false → 172800 ≤ s.tod.toNat → step s = .refused .launchOutOfRange

/-- D29: a launch state whose LATCH breaks R57 is refused, whatever would run in it: any queue, any strobe. That R57 ties
PAR to TCNT modulo 2 is an inference of the model (log 12). -/
def Obligations.UnreachableLaunchIsRefused : Prop :=
  ∀ s : State, s.launched = false → s.tod.toNat < 172800 → (s.bp0 ≠ s.bp1 ∨ s.par ≠ s.tcnt.getLsbD 0) →
    step s = .refused .launchUnreachable

/-- R113: a program launches exactly when every line stands for items (which, says `LinesStandForTheirWords`), no line
before a `.state` yields a word, and the start registers fit and meet R34 and R57. It starts with those registers, its
lines' items in order to run, and the rest as after reset. That the last `.state` of a register counts, and 0 where it has
none, is the model's choice (log 16); that R57 ties PAR to TCNT, its inference (log 12). -/
def Obligations.ProgramLaunchesFromItsStateLines : Prop :=
  ∀ (cfg : Bool) (lines : List AsmLine) (s : State), launchProgram cfg lines = .some s ↔
    ∃ parts : List (List EnvItem),
      List.Forall₂ (fun l items => assemble l = .some items) lines parts ∧
      (∀ pre p post, lines = pre ++ .state p :: post → ∀ l ∈ pre, ¬ YieldsWord l) ∧
      lastSetting tcntSetting lines < 32 ∧ lastSetting todSetting lines < 172800 ∧
      lastSetting latchSetting lines < 2 ^ 32 ∧ Launchable s ∧
      s = { State.reset with
        cfg12h := cfg, tcnt := BitVec.ofNat 5 (lastSetting tcntSetting lines),
        tod := BitVec.ofNat 18 (lastSetting todSetting lines),
        latch := BitVec.ofNat 32 (lastSetting latchSetting lines), queue := parts.flatten }

/-- R113: `.state` is legal only before the first word: after a line that yields one, the program does not launch. -/
def Obligations.StateLineAfterAWordIsRefused : Prop :=
  ∀ (cfg : Bool) (pre post : List AsmLine) (p : StateSetting), (∃ l ∈ pre, YieldsWord l) →
    launchProgram cfg (pre ++ .state p :: post) = .none

/-- R112, R113: the words each line stands for: the mnemonics without operands; SEGWR with its operand forms, an absent dp
being 0, and the glyph names; COLWR; the pseudo-instructions. A `.set` is an item of its own and a `.state` is none. The
split into parsed lines is the model's (log 16). -/
def Obligations.LinesStandForTheirWords : Prop :=
  (assemble (.plain .tick) = .some [.word 0x1000#16] ∧ assemble (.plain .reset) = .some [.word 0x2000#16] ∧
    assemble (.plain .phaseInv) = .some [.word 0x3000#16] ∧ assemble (.plain .tcntStep) = .some [.word 0x4000#16] ∧
    assemble (.plain .todInc) = .some [.word 0x5000#16] ∧ assemble (.plain .phaseIdx) = .some [.word 0x6000#16] ∧
    assemble (.plain .btnSample) = .some [.word 0x7000#16] ∧ assemble (.plain .adjMin) = .some [.word 0x8000#16] ∧
    assemble (.plain .adjHour) = .some [.word 0x9000#16] ∧ assemble (.plain .select) = .some [.word 0xA000#16] ∧
    assemble (.plain .rendTime) = .some [.word 0xB001#16] ∧ assemble (.plain .rendVolt) = .some [.word 0xB002#16] ∧
    assemble (.plain .rendTemp) = .some [.word 0xB003#16] ∧
    (∀ slot g dp, assemble (.plain (.segwr slot g dp)) = .none) ∧ (∀ v, assemble (.plain (.colwr v)) = .none)) ∧
  ((∀ n, AsmGlyph.code (.number n) = if n < 15 then .some (BitVec.ofNat 4 n) else .none) ∧
    (∀ n : Fin 10, AsmGlyph.code (.digit n) = .some (BitVec.ofNat 4 n)) ∧ AsmGlyph.code .space = .some 10#4 ∧
    AsmGlyph.code .minus = .some 11#4 ∧ AsmGlyph.code .degree = .some 12#4 ∧ AsmGlyph.code .celsius = .some 13#4 ∧
    AsmGlyph.code .vee = .some 14#4) ∧
  (∀ (slot : Nat) (glyph : AsmGlyph) (dp : Nat),
    (assemble (.segwr slot glyph (.some dp)) =
      match glyph.code with
      | .none => .none
      | .some g =>
        if slot < 4 ∧ dp ≤ 1 ∧ (dp = 1 → slot = 1) then
          .some [.word (BitVec.ofNat 16 (0xC000 + 32 * slot + 16 * dp + g.toNat))]
        else .none) ∧
    assemble (.segwr slot glyph .none) = assemble (.segwr slot glyph (.some 0)) ∧
    assemble (.segwrDp slot glyph) = if slot = 1 then assemble (.segwr 1 glyph (.some 1)) else .none) ∧
  (∀ v, assemble (.colwr v) = if v ≤ 1 then .some [.word (BitVec.ofNat 16 (0xD000 + v))] else .none) ∧
  (∀ n, assemble (.ticks n) = .some (List.replicate n (.word 0x1000#16))) ∧
  assemble .halfsec = assemble (.ticks 32) ∧ assemble .minute = assemble (.ticks 3840) ∧
  (∀ p, assemble (.set p) = .some [.set p]) ∧ (∀ p, assemble (.state p) = .some [])

/-- R263, R264: with no harness word the environment chooses; RESET wins over a tick that comes with it, and with no
strobe the block does nothing. The query of the strobes and its count are the model's (log 2), and so is the mark that the
launch is over (log 12). -/
def Obligations.StepTakesTheStrobes : Prop :=
  ∀ s : State, s.queue = [] → Launchable s →
    step s =
      if Config.resetStrobe s.draws then exec .reset { s with draws := s.draws + 1, launched := true }
      else if Config.tickStrobe s.draws then exec .tick { s with draws := s.draws + 1, launched := true }
      else .next { s with draws := s.draws + 1 }

/-- R291, R263: the hardware's own first step, from the state after reset with nothing placed: a RESET leaves it as it is,
a TICK inverts every line and counts one tick, and with no strobe nothing happens. The model's own fields `draws` and
`launched` move as logs 2 and 12 say. -/
def Obligations.FirstStepAfterReset : Prop :=
  step State.reset =
    if Config.resetStrobe 0 then .next { State.reset with draws := 1, launched := true }
    else if Config.tickStrobe 0 then
      .next { State.reset with tcnt := 1#5, latch := 0xFFFFFFFF#32, draws := 1, launched := true }
    else .next { State.reset with draws := 1 }

/-- R113, `.set PORT = value`: the step goes on as with the port set, every Sample of that port answers the value, and
every Sample of another port is as before. -/
def Obligations.SetDirectiveFixesItsPort : Prop :=
  (∀ (s : State) (x : PortSetting) (rest : List EnvItem), s.queue = .set x :: rest →
    step s = step { s with queue := rest, ports := s.ports.apply x }) ∧
  (∀ (s : State) (x : PortSetting),
    let t : State := { s with ports := s.ports.apply x }
    t.sampleBtnMin = (match x with | .btnMin v => v | _ => s.sampleBtnMin) ∧
    t.sampleBtnHour = (match x with | .btnHour v => v | _ => s.sampleBtnHour) ∧
    t.sampleVoltIn = (match x with | .voltIn v => v | _ => s.sampleVoltIn) ∧
    t.sampleTempRaw = (match x with | .tempRaw v => v | _ => s.sampleTempRaw) ∧
    t.sampleTempOfs = (match x with | .tempOfs v => v | _ => s.sampleTempOfs) ∧
    t.sampleTempSlope = (match x with | .tempSlope v => v | _ => s.sampleTempSlope))

/-! ### Reset (10_state.md R56, 70_reset_and_hazards.md R290) -/

/-- R56: the reset value of every piece of state, and the history that a RESET step does not erase. -/
def Obligations.ResetValues : Prop :=
  State.reset.tcnt = 0#5 ∧ State.reset.tod = 0#18 ∧ State.reset.latch = 0#32 ∧ State.reset.par = false ∧
  Settled State.reset ∧ State.reset.lines = 0#32 ∧ State.reset.history = [] ∧
  ∀ s : State, ∃ t, exec .reset s = .next t ∧ t.tcnt = 0#5 ∧ t.tod = 0#18 ∧ t.latch = 0#32 ∧ t.par = false ∧
    Settled t ∧ t.lines = 0#32 ∧ t.history = s.history

/-- R290: RESET completes from every state, sets the counters and the latch, leaves every transient without a value and
changes nothing else; the parameters, ports and the model's own fields stay (logs 1, 3, 4). -/
def Obligations.ResetClearsCountersAndLatch : Prop :=
  ∀ s : State, exec .reset s =
    .next { s with tcnt := 0#5, tod := 0#18, latch := 0#32, bnd := .none, pidx := .none, bm := .none, bh := .none,
                   rsel := .none, kelv := .none }

/-- R290: right after RESET the invariants of R57 hold, whatever the state was before. -/
def Obligations.ResetGivesDrivenState : Prop :=
  ∀ s : State, romWf s.rom = true → ∃ t, exec .reset s = .next t ∧ Driven t ∧ t.par = false

/-! ### The line-inversion engine (40_phase_engine.md) -/

/-- R135, R136: PHASE_INV inverts every line, changes nothing else and nothing visible; twice, it is the identity. -/
def Obligations.PhaseInvInvertsEveryLine : Prop :=
  ∀ s : State, ∃ t, exec .phaseInv s = .next t ∧ t = { s with latch := t.latch } ∧
    (∀ i, i < 32 → t.latch.getLsbD i = !s.latch.getLsbD i) ∧ t.par = !s.par ∧
    (∀ i, i < 32 → visible t.latch i = visible s.latch i) ∧ exec .phaseInv t = .next s

/-! ### The scheduler and the time of day (41_scheduler.md) -/

/-- R150. -/
def Obligations.TcntStepCountsAndWraps : Prop :=
  ∀ s : State, ∃ t, exec .tcntStep s = .next t ∧ t = { s with tcnt := t.tcnt, bnd := t.bnd } ∧
    (s.tcnt.toNat = 31 → t.tcnt.toNat = 0 ∧ t.bnd = .some true) ∧
    (s.tcnt.toNat < 31 → t.tcnt.toNat = s.tcnt.toNat + 1 ∧ t.bnd = .some false)

/-- R153. -/
def Obligations.TodIncWrapsAtTheDay : Prop :=
  ∀ s : State, ∃ t, exec .todInc s = .next t ∧ t = { s with tod := t.tod } ∧
    t.tod.toNat = (s.tod.toNat + 1) % 172800

/-- R156. -/
def Obligations.PhaseIdxIsTheUnit : Prop :=
  ∀ s : State, ∃ t p, exec .phaseIdx s = .next t ∧ t = { s with pidx := .some p } ∧
    p.toNat = s.tod.toNat % 120 ∧ p.toNat < 120

/-- R158, R46: BTN_SAMPLE takes both levels from the ports, whatever BM and BH held, and appends one EvBtn. A level no
`.set` has fixed is a draw, and the query is counted (logs 3, 4). -/
def Obligations.BtnSampleReadsThePorts : Prop :=
  ∀ s : State, ∃ m h, exec .btnSample s =
      .next { s with bm := .some m, bh := .some h, history := s.history ++ [.evBtn], draws := s.draws + 1 } ∧
    m = (match s.ports.btnMin with | .some v => v | .none => Config.btnMinDraw s.draws) ∧
    h = (match s.ports.btnHour with | .some v => v | .none => Config.btnHourDraw s.draws)

/-- R162, R163: ADJ_MIN leaves the hour, advances the minute by one within it, and zeroes the unit. -/
def Obligations.AdjMinSnapsToNextMinute : Prop :=
  ∀ s : State, s.tod.toNat < 172800 → ∃ t, exec .adjMin s = .next t ∧ t = { s with tod := t.tod } ∧
    t.tod.toNat < 172800 ∧ t.tod.toNat % 120 = 0 ∧ t.tod.toNat / 7200 = s.tod.toNat / 7200 ∧
    t.tod.toNat % 7200 / 120 = (s.tod.toNat % 7200 / 120 + 1) % 60

/-- R166: ADJ_HOUR advances the hour by one, modulo the day, and leaves minute and unit. -/
def Obligations.AdjHourAdvancesTheHour : Prop :=
  ∀ s : State, s.tod.toNat < 172800 → ∃ t, exec .adjHour s = .next t ∧ t = { s with tod := t.tod } ∧
    t.tod.toNat = (s.tod.toNat + 7200) % 172800 ∧ t.tod.toNat / 7200 = (s.tod.toNat / 7200 + 1) % 24 ∧
    t.tod.toNat % 7200 / 120 = s.tod.toNat % 7200 / 120 ∧ t.tod.toNat % 120 = s.tod.toNat % 120

/-- R170: SELECT, first match wins, writes RSEL and nothing else. -/
def Obligations.SelectChoosesByPriority : Prop :=
  ∀ (s : State) (m h : Bool) (p : BitVec 7), s.bm = .some m → s.bh = .some h → s.pidx = .some p →
    ∃ r, exec .select s = .next { s with rsel := .some r } ∧
      ((m = true ∨ h = true) → r = .time) ∧
      ((m = false ∧ h = false) →
        (p.toNat < 108 → r = .time) ∧ (p.toNat = 108 → r = .volt) ∧ (p.toNat = 114 → r = .temp) ∧
        (108 < p.toNat ∧ p.toNat ≠ 114 → r = .none))

/-- R45, R307: SELECT refuses to read a transient that holds no value. That PIDX is not read where a button is asserted
is the model's reading of R170's pseudocode (log 11). -/
def Obligations.SelectRefusesUnwrittenTransient : Prop :=
  ∀ s : State,
    (s.bm = .none → exec .select s = .refused (.unwrittenTransient .bm)) ∧
    (∀ m, s.bm = .some m → s.bh = .none → exec .select s = .refused (.unwrittenTransient .bh)) ∧
    (s.bm = .some false → s.bh = .some false → s.pidx = .none →
      exec .select s = .refused (.unwrittenTransient .pidx)) ∧
    (∀ m h, s.bm = .some m → s.bh = .some h → (m = true ∨ h = true) →
      exec .select s = .next { s with rsel := .some .time })

/-! ### The renderers (42_renderers.md) -/

/-- R190, R191: the hour and the minute in slots 0 to 3, DP off, the colon at the low bit of TOD, the backplanes and
everything else untouched. -/
def Obligations.RendTimeShowsTheTime : Prop :=
  ∀ s : State, s.tod.toNat < 172800 → ∃ t, exec .rendTime s = .next t ∧ t = { s with latch := t.latch } ∧
    (let hour := s.tod.toNat / 7200
     let shown := if s.cfg12h then (if hour % 12 = 0 then 12 else hour % 12) else hour
     let minute := s.tod.toNat % 7200 / 120
     SlotShows s.rom t.latch 0 (shown / 10) ∧ SlotShows s.rom t.latch 1 (shown % 10) ∧
     SlotShows s.rom t.latch 2 (minute / 10) ∧ SlotShows s.rom t.latch 3 (minute % 10)) ∧
    t.latch.getLsbD 15 = false ∧ t.latch.getLsbD 23 = decide (s.tod.toNat % 2 = 1) ∧
    t.bp0 = s.bp0 ∧ t.bp1 = s.bp1

/-- R195: Space, the volts digit with the point, the tenths digit, V; no colon; the two least significant digits of the
sample v; one EvMeasV. A sample no `.set` has fixed is a draw, and the query is counted (logs 3, 4). -/
def Obligations.RendVoltShowsTheVoltage : Prop :=
  ∀ s : State, ∃ t v, exec .rendVolt s = .next t ∧
    t = { s with latch := t.latch, history := s.history ++ [.evMeasV], draws := s.draws + 1 } ∧
    v = (match s.ports.voltIn with | .some x => x | .none => Config.voltInDraw s.draws) ∧
    SlotShows s.rom t.latch 0 10 ∧ SlotShows s.rom t.latch 1 (v.toNat % 100 / 10) ∧
    SlotShows s.rom t.latch 2 (v.toNat % 10) ∧ SlotShows s.rom t.latch 3 14 ∧
    t.latch.getLsbD 15 = true ∧ t.latch.getLsbD 23 = false ∧ t.bp0 = s.bp0 ∧ t.bp1 = s.bp1

/-- R200, R201, R202: KELV is the conversion, exact where TEMP_OFS >= TEMP_RAW; below 273 the Minus and the units digit
of 273 - KELV, else the two last digits of KELV - 273; Degree, C, no colon, no point; one EvMeasT. Where
TEMP_RAW > TEMP_OFS, KELV is a draw, and the display is that of the draw (logs 3, 4, 5). -/
def Obligations.RendTempShowsTheTemperature : Prop :=
  ∀ s : State, ∃ t k, exec .rendTemp s = .next t ∧
    t = { s with latch := t.latch, kelv := .some k, history := s.history ++ [.evMeasT], draws := s.draws + 1 } ∧
    (s.sampleTempRaw.toNat ≤ s.sampleTempOfs.toNat →
      k.toNat = ((s.sampleTempOfs.toNat - s.sampleTempRaw.toNat) * s.sampleTempSlope.toNat + 0x0800) / 2 ^ 12) ∧
    (s.sampleTempOfs.toNat < s.sampleTempRaw.toNat → k = Config.kelvDraw s.draws) ∧
    (k.toNat < 273 → SlotShows s.rom t.latch 0 11 ∧ SlotShows s.rom t.latch 1 ((273 - k.toNat) % 10)) ∧
    (273 ≤ k.toNat → SlotShows s.rom t.latch 0 ((k.toNat - 273) / 10 % 10) ∧
      SlotShows s.rom t.latch 1 ((k.toNat - 273) % 10)) ∧
    SlotShows s.rom t.latch 2 12 ∧ SlotShows s.rom t.latch 3 13 ∧
    t.latch.getLsbD 15 = false ∧ t.latch.getLsbD 23 = false ∧ t.bp0 = s.bp0 ∧ t.bp1 = s.bp1

/-- R203: on ofs >= raw the intermediate stays below 2^32 and the result, at most 1048544, is exact; and it is
round-half-up of the product over 4096 (R204). -/
def Obligations.ConversionFitsAndRounds : Prop :=
  ∀ (ofs raw slope : BitVec 16) (draw : BitVec 20), raw.toNat ≤ ofs.toNat →
    let x := (ofs.toNat - raw.toNat) * slope.toNat
    let k := (tconv ofs raw slope draw).toNat
    x + 2048 ≤ 4294838273 ∧ x + 2048 < 2 ^ 32 ∧ k ≤ 1048544 ∧ k < 2 ^ 20 ∧
      4096 * k ≤ x + 2048 ∧ x + 2048 < 4096 * (k + 1)

/-- R190, R195, R200: each renderer is its driver writes, run one by one as SEGWR and COLWR. -/
def Obligations.RenderersExpandIntoDriverWrites : Prop :=
  ∀ s : State,
    exec .rendTime s = runAll ((timeWrites s.cfg12h s.tod).map DriverOp.toInstr) s ∧
    exec .rendVolt s =
      runAll ((voltWrites s.sampleVoltIn).map DriverOp.toInstr)
        { s with history := s.history ++ [.evMeasV], draws := s.draws + 1 } ∧
    exec .rendTemp s =
      runAll ((tempWrites s.sampleKelvin).map DriverOp.toInstr)
        { s with history := s.history ++ [.evMeasT], draws := s.draws + 1, kelv := .some s.sampleKelvin }

/-- R207: every SEGWR a renderer issues has a glyph code in 0..14 and dp only with slot 1, so no word is reserved. -/
def Obligations.RenderersIssueNoReservedWord : Prop :=
  ∀ (cfg : Bool) (tod : BitVec 18) (v : BitVec 16) (k : BitVec 20) (op : DriverOp),
    op ∈ timeWrites cfg tod ++ voltWrites v ++ tempWrites k →
    (∀ slot g dp, op = .segwr slot g dp → g.toNat ≤ 14 ∧ (dp = true → slot.toNat = 1)) ∧
    ∃ i, decode (encode op.toInstr) = .ok i

/-- R206: after any renderer the four slots, DP and COLON are fixed by its inputs alone, the glyph ROM among them: from two
states that agree on these and on nothing else they come out the same; BP0 and BP1 are not written. -/
def Obligations.RenderersForgetTheOldDisplay : Prop :=
  ∀ s u : State, (∀ g, romRead s.rom g = romRead u.rom g) →
    (s.tod = u.tod → s.cfg12h = u.cfg12h → RendersAlike .rendTime s u) ∧
    (s.sampleVoltIn = u.sampleVoltIn → RendersAlike .rendVolt s u) ∧
    (s.sampleKelvin = u.sampleKelvin → RendersAlike .rendTemp s u)

/-- R195: the display depends on the two least significant digits of the sample only. -/
def Obligations.VoltageIsShownModulo100 : Prop :=
  ∀ (s : State) (v w : BitVec 16), v.toNat % 100 = w.toNat % 100 →
    ∃ t u, exec .rendVolt { s with ports := { s.ports with voltIn := .some v } } = .next t ∧
      exec .rendVolt { s with ports := { s.ports with voltIn := .some w } } = .next u ∧ t.latch = u.latch

/-! ### The segment driver (43_segment_driver.md) -/

/-- R230, R231: SEGWR writes the slot's seven lines with the glyph's pattern, DP with dp where the slot is 1, and no
other line; nothing else changes. -/
def Obligations.SegwrWritesItsSlot : Prop :=
  ∀ (s : State) (slot : BitVec 2) (g : BitVec 4) (dp : Bool), g.toNat < 15 → (dp = true → slot.toNat = 1) →
    ∃ t, exec (.segwr slot g dp) s = .next t ∧ t = { s with latch := t.latch } ∧
      ∀ i, i < 32 → t.latch.getLsbD i =
        if 8 * slot.toNat ≤ i ∧ i < 8 * slot.toNat + 7 then (romRead s.rom g).getLsbD (i - 8 * slot.toNat)
        else if slot.toNat = 1 ∧ i = 15 then dp
        else s.latch.getLsbD i

/-- R230, R111: a reserved form of SEGWR is refused, g = 15 before dp outside slot 1. -/
def Obligations.SegwrRefusesReservedForms : Prop :=
  ∀ (s : State) (slot : BitVec 2) (g : BitVec 4) (dp : Bool),
    (g.toNat = 15 → exec (.segwr slot g dp) s = .refused (.reservedWord (encode (.segwr slot g dp)) .glyphReserved)) ∧
    (g.toNat ≠ 15 → dp = true → slot.toNat ≠ 1 →
      exec (.segwr slot g dp) s = .refused (.reservedWord (encode (.segwr slot g dp)) .dpOutsideSlot1))

/-- R234: COLWR writes COLON and nothing else; at PAR = 0 a 1 makes the colon visible. -/
def Obligations.ColwrWritesTheColon : Prop :=
  ∀ (s : State) (v : Bool), ∃ t, exec (.colwr v) s = .next t ∧ t = { s with latch := t.latch } ∧
    (∀ i, i < 32 → t.latch.getLsbD i = if i = 23 then v else s.latch.getLsbD i) ∧
    (s.par = false → visible t.latch 23 = v)

/-- R236, R237: right after a write at PAR = 0 what is visible is the written value, at PAR = 1 its complement. -/
def Obligations.WrittenValueIsVisibleAtEvenParity : Prop :=
  (∀ (s t : State) (slot : BitVec 2) (g : BitVec 4) (dp : Bool), exec (.segwr slot g dp) s = .next t →
    (s.par = false →
      (∀ k, k < 7 → visible t.latch (8 * slot.toNat + k) = (romRead s.rom g).getLsbD k) ∧
      (slot.toNat = 1 → visible t.latch 15 = dp)) ∧
    (s.par = true →
      (∀ k, k < 7 → visible t.latch (8 * slot.toNat + k) = !(romRead s.rom g).getLsbD k) ∧
      (slot.toNat = 1 → visible t.latch 15 = !dp))) ∧
  (∀ (s t : State) (v : Bool), exec (.colwr v) s = .next t →
    (s.par = false → visible t.latch 23 = v) ∧ (s.par = true → visible t.latch 23 = !v))

/-! ### TICK (40_phase_engine.md) -/

/-- R134: a TICK with TCNT in 0..30 complements LATCH and adds one to TCNT, and nothing else changes from a state between
the hardware's steps. That a TICK drops a transient which a harness had written is the model's reading of R45 (log 10). -/
def Obligations.NonBoundaryTick : Prop :=
  (∀ s : State, s.tcnt.toNat < 31 →
    exec .tick s = .next { s with latch := ~~~s.latch, tcnt := s.tcnt + 1#5, bnd := .none, pidx := .none,
                                  bm := .none, bh := .none, rsel := .none, kelv := .none }) ∧
  (∀ s : State, s.tcnt.toNat < 31 → Settled s →
    exec .tick s = .next { s with latch := ~~~s.latch, tcnt := s.tcnt + 1#5 })

/-- R164, R167: the net effect of a boundary TICK on TOD: the +1 first, then the minutes snap, or else the hour. -/
def Obligations.BoundaryTickAdvancesTod : Prop :=
  ∀ s : State, s.tcnt.toNat = 31 → ∃ t, exec .tick s = .next t ∧ t.tcnt.toNat = 0 ∧
    (s.sampleBtnMin = true → t.tod.toNat =
      (s.tod.toNat + 1) % 172800 / 7200 * 7200 + ((s.tod.toNat + 1) % 172800 % 7200 / 120 + 1) % 60 * 120) ∧
    (s.sampleBtnMin = false → s.sampleBtnHour = true → t.tod.toNat = (s.tod.toNat + 1 + 7200) % 172800) ∧
    (s.sampleBtnMin = false → s.sampleBtnHour = false → t.tod.toNat = (s.tod.toNat + 1) % 172800)

/-- R130, with R170: the whole effect of a boundary TICK: LATCH inverted and then written by the chosen renderer with
the adjusted TOD, the renderer chosen by the unit before the adjustment, the events of its queries, and nothing else.
How draws are counted, and that a TICK drops every transient, is the model's (logs 4, 10). -/
def Obligations.BoundaryTickEffect : Prop :=
  ∀ s : State, s.tcnt.toNat = 31 →
    let m := s.sampleBtnMin
    let h := s.sampleBtnHour
    let n := (s.tod.toNat + 1) % 172800
    let tod : BitVec 18 :=
      if m then adjMinValue (BitVec.ofNat 18 n) else if h then adjHourValue (BitVec.ofNat 18 n) else BitVec.ofNat 18 n
    let r : RSel :=
      if m || h then .time else if n % 120 < 108 then .time else if n % 120 = 108 then .volt
      else if n % 120 = 114 then .temp else .none
    let q : State := { s with draws := s.draws + 1 }
    let ops := match r with
      | .none => []
      | .time => timeWrites s.cfg12h tod
      | .volt => voltWrites q.sampleVoltIn
      | .temp => tempWrites q.sampleKelvin
    let evs : List Event := match r with
      | .none => [.evBtn]
      | .time => [.evBtn]
      | .volt => [.evBtn, .evMeasV]
      | .temp => [.evBtn, .evMeasT]
    exec .tick s =
      .next { s with tcnt := 0#5, tod := tod, latch := latchDrivers s.rom ops (~~~s.latch), bnd := .none,
                     pidx := .none, bm := .none, bh := .none, rsel := .none, kelv := .none,
                     history := s.history ++ evs, draws := s.draws + evs.length }

/-- R133: a TICK is its micro-operations, issued one by one as the table says from BND, BM, BH and RSEL. That it begins
from transients without a value and leaves none is the model's reading of R45 (log 10). -/
def Obligations.TickRefinesItsMicroOperations : Prop :=
  ∀ s : State, ∃ u, exec .tick s = .next u.clearTransients ∧
    (s.tcnt.toNat ≠ 31 → u.bnd = .some false ∧ runAll [.phaseInv, .tcntStep] s.clearTransients = .next u) ∧
    (s.tcnt.toNat = 31 → u.bnd = .some true ∧
      ∃ m h r, u.bm = .some m ∧ u.bh = .some h ∧ u.rsel = .some r ∧
        runAll (boundaryPrefix m h ++ rendererCall r) s.clearTransients = .next u)

/-- R131, R260: a TICK always runs to completion, from every state, and flips PAR. That it leaves no transient behind is
the model's reading of R45 (log 10). -/
def Obligations.TickAlwaysCompletes : Prop :=
  ∀ s : State, ∃ t, exec .tick s = .next t ∧ Settled t ∧ t.par = !s.par

/-- R240: every SEGWR and COLWR of a TICK runs at PAR = 0. Off a boundary a TICK issues none: it is PHASE_INV and
TCNT_STEP. On a boundary, in the sequence of R133: PAR is 0 right after PHASE_INV, in the state v that the renderer is called
in, and after the renderer's query and before and after each of its driver writes (k of them issued); and these writes
are what leaves the LATCH that the TICK ends with. -/
def Obligations.TickWritesAtEvenParity : Prop :=
  ∀ s : State, Driven s →
    (s.tcnt.toNat ≠ 31 → ∃ u t, runAll [.phaseInv, .tcntStep] s = .next u ∧ exec .tick s = .next t ∧
      t.latch = u.latch) ∧
    (s.tcnt.toNat = 31 →
      (∃ u, exec .phaseInv s = .next u ∧ u.par = false) ∧
      ∃ v m h r, runAll (boundaryPrefix m h) s = .next v ∧
        v.bm = .some m ∧ v.bh = .some h ∧ v.rsel = .some r ∧ v.par = false ∧
        (∀ k, k ≤ (issuedWrites r v).length → ∃ x,
          runAll (((issuedWrites r v).take k).map DriverOp.toInstr) (afterQuery r v) = .next x ∧ x.par = false) ∧
        ∃ u t, runAll ((issuedWrites r v).map DriverOp.toInstr) (afterQuery r v) = .next u ∧
          runAll (rendererCall r) v = .next u ∧ exec .tick s = .next t ∧ t.latch = u.latch ∧
          t.par = false ∧ t.bp1 = false)

/-- R241, R136: a TICK whose boundary is not reached, or selects no renderer, leaves the absolute pattern and everything
visible as they were. -/
def Obligations.DisplayIsSteadyBetweenRenderers : Prop :=
  ∀ s : State, OnlyInverts s →
    ∃ t, exec .tick s = .next t ∧ t.latch = ~~~s.latch ∧ absOf t.latch = absOf s.latch ∧
      ∀ i, i < 32 → visible t.latch i = visible s.latch i

/-- R138: over two TICKs without a write, off a boundary or at one that selects NONE, every line takes both levels and
comes back, and so does every difference of a line and the backplane: the time-average is zero. -/
def Obligations.TwoTicksRestoreEveryLine : Prop :=
  ∀ s : State, OnlyInverts s → (∀ t, exec .tick s = .next t → OnlyInverts t) →
    ∃ t u, exec .tick s = .next t ∧ exec .tick t = .next u ∧ u.latch = s.latch ∧
    ∀ i, i < 32 →
      (t.latch.getLsbD i = !s.latch.getLsbD i) ∧
      (((s.latch.getLsbD i).toInt - (s.latch.getLsbD 7).toInt) +
        ((t.latch.getLsbD i).toInt - (t.latch.getLsbD 7).toInt) = 0)

/-- R172: the schedule within one minute, with no button held: which unit queries what and writes what on the inverted
LATCH, and which unit holds the display. The measured samples are those of the second query of the TICK, what `.set`
fixed or draws (logs 3, 4, 5). -/
def Obligations.MinuteSchedule : Prop :=
  ∀ s : State, s.tcnt.toNat = 31 → s.sampleBtnMin = false → s.sampleBtnHour = false →
    ∃ t, exec .tick s = .next t ∧
      (let unit := (s.tod.toNat + 1) % 172800 % 120
       let q : State := { s with draws := s.draws + 1 }
       (unit < 108 → t.history = s.history ++ [.evBtn] ∧
         t.latch = latchDrivers s.rom (timeWrites s.cfg12h t.tod) (~~~s.latch)) ∧
       (unit = 108 → t.history = s.history ++ [.evBtn, .evMeasV] ∧
         t.latch = latchDrivers s.rom (voltWrites q.sampleVoltIn) (~~~s.latch)) ∧
       (unit = 114 → t.history = s.history ++ [.evBtn, .evMeasT] ∧
         t.latch = latchDrivers s.rom (tempWrites q.sampleKelvin) (~~~s.latch)) ∧
       (108 < unit ∧ unit ≠ 114 → t.history = s.history ++ [.evBtn] ∧ t.latch = ~~~s.latch))

/-! ### The whole machine -/

/-- R260, R45, R111: the only micro-operations that can be refused are a SELECT that reads an unwritten transient and a
reserved form of SEGWR; every other one answers a next state. -/
def Obligations.OnlySelectAndReservedSegwrAreRefused : Prop :=
  ∀ (i : Instr) (s : State), (∃ t, exec i s = .next t) ∨
    (i = .select ∧ ∃ x, exec i s = .refused (.unwrittenTransient x)) ∨
    (i.wf = false ∧ ∃ why, exec i s = .refused (.reservedWord (encode i) why))

/-- R53, R70, R52, R56: no step changes CFG_12H or an entry of the glyph ROM, or takes an event out of the history. -/
def Obligations.StepKeepsParametersAndHistory : Prop :=
  ∀ s t : State, step s = .next t →
    t.cfg12h = s.cfg12h ∧ t.rom = s.rom ∧ (∀ g, romRead t.rom g = romRead s.rom g) ∧ s.history <+: t.history

/-- R35, R40, R45: the counters stay in range, the backplanes stay equal, and GLYPH_ROM stays canonical, in every step
of the strobes and of a harness. -/
def Obligations.StepKeepsSound : Prop :=
  ∀ s t : State, Sound s → step s = .next t → Sound t

/-- The state after reset is sound. -/
def Obligations.ResetIsSound : Prop := Sound State.reset

/-- R57: TICK and RESET keep the invariants of the reachable states, and so does every step the strobes start. -/
def Obligations.HardwareStepsKeepDriven : Prop :=
  (∀ s t : State, Driven s → exec .tick s = .next t → Driven t) ∧
  (∀ s t : State, Driven s → exec .reset s = .next t → Driven t) ∧
  (∀ s t : State, Driven s → s.queue = [] → step s = .next t → Driven t ∧ t.queue = [])

/-- The state after reset meets R57. -/
def Obligations.ResetIsDriven : Prop := Driven State.reset

/-- R57, R137, R152: after N TICKs from RESET, PAR = N mod 2 on both backplanes, TCNT = N mod 32, TOD is in range, and
N div 32 boundaries have happened, each with its one button query. -/
def Obligations.ParityAndCadenceFromReset : Prop :=
  ∀ (s : State) (n : Nat), ∃ r t, exec .reset s = .next r ∧ tickRun n r = .next t ∧
    t.par = decide (n % 2 = 1) ∧ t.bp1 = decide (n % 2 = 1) ∧ t.tcnt.toNat = n % 32 ∧ t.tod.toNat < 172800 ∧
    t.history.count .evBtn = s.history.count .evBtn + n / 32

/-- R154: with no button asserted at any boundary, 32 TICKs from any state advance TOD by one modulo the day, and after N
TICKs from RESET TOD = (N div 32) mod 172800. -/
def Obligations.TodCountsHalfSeconds : Prop :=
  (∀ s : State, ButtonsAtBoundaries false false 32 s →
    ∃ t, tickRun 32 s = .next t ∧ t.tod.toNat = (s.tod.toNat + 1) % 172800) ∧
  (∀ (s r : State) (n : Nat), exec .reset s = .next r → ButtonsAtBoundaries false false n r →
    ∃ t, tickRun n r = .next t ∧ t.tod.toNat = n / 32 % 172800)

/-- R160, R167: the hours button alone, held at every boundary since RESET, adds one unit and one hour at each. -/
def Obligations.HeldHoursButtonRepeats : Prop :=
  ∀ (s r : State) (n : Nat), exec .reset s = .next r → ButtonsAtBoundaries false true n r →
    ∃ t, tickRun n r = .next t ∧ t.tod.toNat = n / 32 * 7201 % 172800

/-- R242: for the first 31 TICKs after RESET nothing is visible. -/
def Obligations.DisplayIsBlankAfterReset : Prop :=
  ∀ (s : State) (n : Nat), n ≤ 31 → ∃ r t, exec .reset s = .next r ∧ tickRun n r = .next t ∧
    absOf t.latch = 0#32 ∧ ∀ i, i < 32 → visible t.latch i = false

/-! ### The glyph ROM as a parameter (20_memory.md R72; log 7) -/

/-- Choosing a pattern for a glyph of a canonical ROM: a read of that glyph gives the pattern, and of every other glyph
what it gave before. The operation is the model's (log 7). -/
def Obligations.RomReadAfterChoice : Prop :=
  ∀ (rom : List Host.Cell) (g h : BitVec 4) (pat : BitVec 7), romWf rom = true → g.toNat < 15 →
    romRead (romBurn rom g pat) h = if h = g then pat else romRead rom h
end

