-- ==== Sys2Proof/Laws/State.lean ====
section
/-! SUPPORT. One lemma per field per update of the state, true by rfl, so that no later proof unfolds an update. -/

namespace Sys2Proof.Machine

section setTcnt
variable (s : State) (v : BitVec 5)

@[simp] theorem State.setTcnt_tcnt : (s.setTcnt v).tcnt = v := rfl
@[simp] theorem State.setTcnt_tod : (s.setTcnt v).tod = s.tod := rfl
@[simp] theorem State.setTcnt_latch : (s.setTcnt v).latch = s.latch := rfl
@[simp] theorem State.setTcnt_bnd : (s.setTcnt v).bnd = s.bnd := rfl
@[simp] theorem State.setTcnt_pidx : (s.setTcnt v).pidx = s.pidx := rfl
@[simp] theorem State.setTcnt_bm : (s.setTcnt v).bm = s.bm := rfl
@[simp] theorem State.setTcnt_bh : (s.setTcnt v).bh = s.bh := rfl
@[simp] theorem State.setTcnt_rsel : (s.setTcnt v).rsel = s.rsel := rfl
@[simp] theorem State.setTcnt_kelv : (s.setTcnt v).kelv = s.kelv := rfl
@[simp] theorem State.setTcnt_ports : (s.setTcnt v).ports = s.ports := rfl
@[simp] theorem State.setTcnt_history : (s.setTcnt v).history = s.history := rfl
@[simp] theorem State.setTcnt_cfg12h : (s.setTcnt v).cfg12h = s.cfg12h := rfl
@[simp] theorem State.setTcnt_rom : (s.setTcnt v).rom = s.rom := rfl
@[simp] theorem State.setTcnt_queue : (s.setTcnt v).queue = s.queue := rfl
@[simp] theorem State.setTcnt_draws : (s.setTcnt v).draws = s.draws := rfl
@[simp] theorem State.setTcnt_launched : (s.setTcnt v).launched = s.launched := rfl

end setTcnt

section setTod
variable (s : State) (v : BitVec 18)

@[simp] theorem State.setTod_tcnt : (s.setTod v).tcnt = s.tcnt := rfl
@[simp] theorem State.setTod_tod : (s.setTod v).tod = v := rfl
@[simp] theorem State.setTod_latch : (s.setTod v).latch = s.latch := rfl
@[simp] theorem State.setTod_bnd : (s.setTod v).bnd = s.bnd := rfl
@[simp] theorem State.setTod_pidx : (s.setTod v).pidx = s.pidx := rfl
@[simp] theorem State.setTod_bm : (s.setTod v).bm = s.bm := rfl
@[simp] theorem State.setTod_bh : (s.setTod v).bh = s.bh := rfl
@[simp] theorem State.setTod_rsel : (s.setTod v).rsel = s.rsel := rfl
@[simp] theorem State.setTod_kelv : (s.setTod v).kelv = s.kelv := rfl
@[simp] theorem State.setTod_ports : (s.setTod v).ports = s.ports := rfl
@[simp] theorem State.setTod_history : (s.setTod v).history = s.history := rfl
@[simp] theorem State.setTod_cfg12h : (s.setTod v).cfg12h = s.cfg12h := rfl
@[simp] theorem State.setTod_rom : (s.setTod v).rom = s.rom := rfl
@[simp] theorem State.setTod_queue : (s.setTod v).queue = s.queue := rfl
@[simp] theorem State.setTod_draws : (s.setTod v).draws = s.draws := rfl
@[simp] theorem State.setTod_launched : (s.setTod v).launched = s.launched := rfl

end setTod

section setLatch
variable (s : State) (v : BitVec 32)

@[simp] theorem State.setLatch_tcnt : (s.setLatch v).tcnt = s.tcnt := rfl
@[simp] theorem State.setLatch_tod : (s.setLatch v).tod = s.tod := rfl
@[simp] theorem State.setLatch_latch : (s.setLatch v).latch = v := rfl
@[simp] theorem State.setLatch_bnd : (s.setLatch v).bnd = s.bnd := rfl
@[simp] theorem State.setLatch_pidx : (s.setLatch v).pidx = s.pidx := rfl
@[simp] theorem State.setLatch_bm : (s.setLatch v).bm = s.bm := rfl
@[simp] theorem State.setLatch_bh : (s.setLatch v).bh = s.bh := rfl
@[simp] theorem State.setLatch_rsel : (s.setLatch v).rsel = s.rsel := rfl
@[simp] theorem State.setLatch_kelv : (s.setLatch v).kelv = s.kelv := rfl
@[simp] theorem State.setLatch_ports : (s.setLatch v).ports = s.ports := rfl
@[simp] theorem State.setLatch_history : (s.setLatch v).history = s.history := rfl
@[simp] theorem State.setLatch_cfg12h : (s.setLatch v).cfg12h = s.cfg12h := rfl
@[simp] theorem State.setLatch_rom : (s.setLatch v).rom = s.rom := rfl
@[simp] theorem State.setLatch_queue : (s.setLatch v).queue = s.queue := rfl
@[simp] theorem State.setLatch_draws : (s.setLatch v).draws = s.draws := rfl
@[simp] theorem State.setLatch_launched : (s.setLatch v).launched = s.launched := rfl

end setLatch

section setBnd
variable (s : State) (v : Bool)

@[simp] theorem State.setBnd_tcnt : (s.setBnd v).tcnt = s.tcnt := rfl
@[simp] theorem State.setBnd_tod : (s.setBnd v).tod = s.tod := rfl
@[simp] theorem State.setBnd_latch : (s.setBnd v).latch = s.latch := rfl
@[simp] theorem State.setBnd_bnd : (s.setBnd v).bnd = .some v := rfl
@[simp] theorem State.setBnd_pidx : (s.setBnd v).pidx = s.pidx := rfl
@[simp] theorem State.setBnd_bm : (s.setBnd v).bm = s.bm := rfl
@[simp] theorem State.setBnd_bh : (s.setBnd v).bh = s.bh := rfl
@[simp] theorem State.setBnd_rsel : (s.setBnd v).rsel = s.rsel := rfl
@[simp] theorem State.setBnd_kelv : (s.setBnd v).kelv = s.kelv := rfl
@[simp] theorem State.setBnd_ports : (s.setBnd v).ports = s.ports := rfl
@[simp] theorem State.setBnd_history : (s.setBnd v).history = s.history := rfl
@[simp] theorem State.setBnd_cfg12h : (s.setBnd v).cfg12h = s.cfg12h := rfl
@[simp] theorem State.setBnd_rom : (s.setBnd v).rom = s.rom := rfl
@[simp] theorem State.setBnd_queue : (s.setBnd v).queue = s.queue := rfl
@[simp] theorem State.setBnd_draws : (s.setBnd v).draws = s.draws := rfl
@[simp] theorem State.setBnd_launched : (s.setBnd v).launched = s.launched := rfl

end setBnd

section setPidx
variable (s : State) (v : BitVec 7)

@[simp] theorem State.setPidx_tcnt : (s.setPidx v).tcnt = s.tcnt := rfl
@[simp] theorem State.setPidx_tod : (s.setPidx v).tod = s.tod := rfl
@[simp] theorem State.setPidx_latch : (s.setPidx v).latch = s.latch := rfl
@[simp] theorem State.setPidx_bnd : (s.setPidx v).bnd = s.bnd := rfl
@[simp] theorem State.setPidx_pidx : (s.setPidx v).pidx = .some v := rfl
@[simp] theorem State.setPidx_bm : (s.setPidx v).bm = s.bm := rfl
@[simp] theorem State.setPidx_bh : (s.setPidx v).bh = s.bh := rfl
@[simp] theorem State.setPidx_rsel : (s.setPidx v).rsel = s.rsel := rfl
@[simp] theorem State.setPidx_kelv : (s.setPidx v).kelv = s.kelv := rfl
@[simp] theorem State.setPidx_ports : (s.setPidx v).ports = s.ports := rfl
@[simp] theorem State.setPidx_history : (s.setPidx v).history = s.history := rfl
@[simp] theorem State.setPidx_cfg12h : (s.setPidx v).cfg12h = s.cfg12h := rfl
@[simp] theorem State.setPidx_rom : (s.setPidx v).rom = s.rom := rfl
@[simp] theorem State.setPidx_queue : (s.setPidx v).queue = s.queue := rfl
@[simp] theorem State.setPidx_draws : (s.setPidx v).draws = s.draws := rfl
@[simp] theorem State.setPidx_launched : (s.setPidx v).launched = s.launched := rfl

end setPidx

section setButtons
variable (s : State) (m h : Bool)

@[simp] theorem State.setButtons_tcnt : (s.setButtons m h).tcnt = s.tcnt := rfl
@[simp] theorem State.setButtons_tod : (s.setButtons m h).tod = s.tod := rfl
@[simp] theorem State.setButtons_latch : (s.setButtons m h).latch = s.latch := rfl
@[simp] theorem State.setButtons_bnd : (s.setButtons m h).bnd = s.bnd := rfl
@[simp] theorem State.setButtons_pidx : (s.setButtons m h).pidx = s.pidx := rfl
@[simp] theorem State.setButtons_bm : (s.setButtons m h).bm = .some m := rfl
@[simp] theorem State.setButtons_bh : (s.setButtons m h).bh = .some h := rfl
@[simp] theorem State.setButtons_rsel : (s.setButtons m h).rsel = s.rsel := rfl
@[simp] theorem State.setButtons_kelv : (s.setButtons m h).kelv = s.kelv := rfl
@[simp] theorem State.setButtons_ports : (s.setButtons m h).ports = s.ports := rfl
@[simp] theorem State.setButtons_history : (s.setButtons m h).history = s.history := rfl
@[simp] theorem State.setButtons_cfg12h : (s.setButtons m h).cfg12h = s.cfg12h := rfl
@[simp] theorem State.setButtons_rom : (s.setButtons m h).rom = s.rom := rfl
@[simp] theorem State.setButtons_queue : (s.setButtons m h).queue = s.queue := rfl
@[simp] theorem State.setButtons_draws : (s.setButtons m h).draws = s.draws := rfl
@[simp] theorem State.setButtons_launched : (s.setButtons m h).launched = s.launched := rfl

end setButtons

section setRsel
variable (s : State) (v : RSel)

@[simp] theorem State.setRsel_tcnt : (s.setRsel v).tcnt = s.tcnt := rfl
@[simp] theorem State.setRsel_tod : (s.setRsel v).tod = s.tod := rfl
@[simp] theorem State.setRsel_latch : (s.setRsel v).latch = s.latch := rfl
@[simp] theorem State.setRsel_bnd : (s.setRsel v).bnd = s.bnd := rfl
@[simp] theorem State.setRsel_pidx : (s.setRsel v).pidx = s.pidx := rfl
@[simp] theorem State.setRsel_bm : (s.setRsel v).bm = s.bm := rfl
@[simp] theorem State.setRsel_bh : (s.setRsel v).bh = s.bh := rfl
@[simp] theorem State.setRsel_rsel : (s.setRsel v).rsel = .some v := rfl
@[simp] theorem State.setRsel_kelv : (s.setRsel v).kelv = s.kelv := rfl
@[simp] theorem State.setRsel_ports : (s.setRsel v).ports = s.ports := rfl
@[simp] theorem State.setRsel_history : (s.setRsel v).history = s.history := rfl
@[simp] theorem State.setRsel_cfg12h : (s.setRsel v).cfg12h = s.cfg12h := rfl
@[simp] theorem State.setRsel_rom : (s.setRsel v).rom = s.rom := rfl
@[simp] theorem State.setRsel_queue : (s.setRsel v).queue = s.queue := rfl
@[simp] theorem State.setRsel_draws : (s.setRsel v).draws = s.draws := rfl
@[simp] theorem State.setRsel_launched : (s.setRsel v).launched = s.launched := rfl

end setRsel

section setKelv
variable (s : State) (v : BitVec 20)

@[simp] theorem State.setKelv_tcnt : (s.setKelv v).tcnt = s.tcnt := rfl
@[simp] theorem State.setKelv_tod : (s.setKelv v).tod = s.tod := rfl
@[simp] theorem State.setKelv_latch : (s.setKelv v).latch = s.latch := rfl
@[simp] theorem State.setKelv_bnd : (s.setKelv v).bnd = s.bnd := rfl
@[simp] theorem State.setKelv_pidx : (s.setKelv v).pidx = s.pidx := rfl
@[simp] theorem State.setKelv_bm : (s.setKelv v).bm = s.bm := rfl
@[simp] theorem State.setKelv_bh : (s.setKelv v).bh = s.bh := rfl
@[simp] theorem State.setKelv_rsel : (s.setKelv v).rsel = s.rsel := rfl
@[simp] theorem State.setKelv_kelv : (s.setKelv v).kelv = .some v := rfl
@[simp] theorem State.setKelv_ports : (s.setKelv v).ports = s.ports := rfl
@[simp] theorem State.setKelv_history : (s.setKelv v).history = s.history := rfl
@[simp] theorem State.setKelv_cfg12h : (s.setKelv v).cfg12h = s.cfg12h := rfl
@[simp] theorem State.setKelv_rom : (s.setKelv v).rom = s.rom := rfl
@[simp] theorem State.setKelv_queue : (s.setKelv v).queue = s.queue := rfl
@[simp] theorem State.setKelv_draws : (s.setKelv v).draws = s.draws := rfl
@[simp] theorem State.setKelv_launched : (s.setKelv v).launched = s.launched := rfl

end setKelv

section clearTransients
variable (s : State)

@[simp] theorem State.clearTransients_tcnt : (s.clearTransients).tcnt = s.tcnt := rfl
@[simp] theorem State.clearTransients_tod : (s.clearTransients).tod = s.tod := rfl
@[simp] theorem State.clearTransients_latch : (s.clearTransients).latch = s.latch := rfl
@[simp] theorem State.clearTransients_bnd : (s.clearTransients).bnd = .none := rfl
@[simp] theorem State.clearTransients_pidx : (s.clearTransients).pidx = .none := rfl
@[simp] theorem State.clearTransients_bm : (s.clearTransients).bm = .none := rfl
@[simp] theorem State.clearTransients_bh : (s.clearTransients).bh = .none := rfl
@[simp] theorem State.clearTransients_rsel : (s.clearTransients).rsel = .none := rfl
@[simp] theorem State.clearTransients_kelv : (s.clearTransients).kelv = .none := rfl
@[simp] theorem State.clearTransients_ports : (s.clearTransients).ports = s.ports := rfl
@[simp] theorem State.clearTransients_history : (s.clearTransients).history = s.history := rfl
@[simp] theorem State.clearTransients_cfg12h : (s.clearTransients).cfg12h = s.cfg12h := rfl
@[simp] theorem State.clearTransients_rom : (s.clearTransients).rom = s.rom := rfl
@[simp] theorem State.clearTransients_queue : (s.clearTransients).queue = s.queue := rfl
@[simp] theorem State.clearTransients_draws : (s.clearTransients).draws = s.draws := rfl
@[simp] theorem State.clearTransients_launched : (s.clearTransients).launched = s.launched := rfl

end clearTransients

section endQuery
variable (s : State) (ev : Event)

@[simp] theorem State.endQuery_tcnt : (s.endQuery ev).tcnt = s.tcnt := rfl
@[simp] theorem State.endQuery_tod : (s.endQuery ev).tod = s.tod := rfl
@[simp] theorem State.endQuery_latch : (s.endQuery ev).latch = s.latch := rfl
@[simp] theorem State.endQuery_bnd : (s.endQuery ev).bnd = s.bnd := rfl
@[simp] theorem State.endQuery_pidx : (s.endQuery ev).pidx = s.pidx := rfl
@[simp] theorem State.endQuery_bm : (s.endQuery ev).bm = s.bm := rfl
@[simp] theorem State.endQuery_bh : (s.endQuery ev).bh = s.bh := rfl
@[simp] theorem State.endQuery_rsel : (s.endQuery ev).rsel = s.rsel := rfl
@[simp] theorem State.endQuery_kelv : (s.endQuery ev).kelv = s.kelv := rfl
@[simp] theorem State.endQuery_ports : (s.endQuery ev).ports = s.ports := rfl
@[simp] theorem State.endQuery_history : (s.endQuery ev).history = s.history ++ [ev] := rfl
@[simp] theorem State.endQuery_cfg12h : (s.endQuery ev).cfg12h = s.cfg12h := rfl
@[simp] theorem State.endQuery_rom : (s.endQuery ev).rom = s.rom := rfl
@[simp] theorem State.endQuery_queue : (s.endQuery ev).queue = s.queue := rfl
@[simp] theorem State.endQuery_draws : (s.endQuery ev).draws = s.draws + 1 := rfl
@[simp] theorem State.endQuery_launched : (s.endQuery ev).launched = s.launched := rfl

end endQuery

section drive
variable (s : State) (ops : List DriverOp)

@[simp] theorem State.drive_tcnt : (s.drive ops).tcnt = s.tcnt := rfl
@[simp] theorem State.drive_tod : (s.drive ops).tod = s.tod := rfl
@[simp] theorem State.drive_latch : (s.drive ops).latch = latchDrivers s.rom ops s.latch := rfl
@[simp] theorem State.drive_bnd : (s.drive ops).bnd = s.bnd := rfl
@[simp] theorem State.drive_pidx : (s.drive ops).pidx = s.pidx := rfl
@[simp] theorem State.drive_bm : (s.drive ops).bm = s.bm := rfl
@[simp] theorem State.drive_bh : (s.drive ops).bh = s.bh := rfl
@[simp] theorem State.drive_rsel : (s.drive ops).rsel = s.rsel := rfl
@[simp] theorem State.drive_kelv : (s.drive ops).kelv = s.kelv := rfl
@[simp] theorem State.drive_ports : (s.drive ops).ports = s.ports := rfl
@[simp] theorem State.drive_history : (s.drive ops).history = s.history := rfl
@[simp] theorem State.drive_cfg12h : (s.drive ops).cfg12h = s.cfg12h := rfl
@[simp] theorem State.drive_rom : (s.drive ops).rom = s.rom := rfl
@[simp] theorem State.drive_queue : (s.drive ops).queue = s.queue := rfl
@[simp] theorem State.drive_draws : (s.drive ops).draws = s.draws := rfl
@[simp] theorem State.drive_launched : (s.drive ops).launched = s.launched := rfl

end drive

section markLaunched
variable (s : State)

@[simp] theorem State.markLaunched_tcnt : (s.markLaunched).tcnt = s.tcnt := rfl
@[simp] theorem State.markLaunched_tod : (s.markLaunched).tod = s.tod := rfl
@[simp] theorem State.markLaunched_latch : (s.markLaunched).latch = s.latch := rfl
@[simp] theorem State.markLaunched_bnd : (s.markLaunched).bnd = s.bnd := rfl
@[simp] theorem State.markLaunched_pidx : (s.markLaunched).pidx = s.pidx := rfl
@[simp] theorem State.markLaunched_bm : (s.markLaunched).bm = s.bm := rfl
@[simp] theorem State.markLaunched_bh : (s.markLaunched).bh = s.bh := rfl
@[simp] theorem State.markLaunched_rsel : (s.markLaunched).rsel = s.rsel := rfl
@[simp] theorem State.markLaunched_kelv : (s.markLaunched).kelv = s.kelv := rfl
@[simp] theorem State.markLaunched_ports : (s.markLaunched).ports = s.ports := rfl
@[simp] theorem State.markLaunched_history : (s.markLaunched).history = s.history := rfl
@[simp] theorem State.markLaunched_cfg12h : (s.markLaunched).cfg12h = s.cfg12h := rfl
@[simp] theorem State.markLaunched_rom : (s.markLaunched).rom = s.rom := rfl
@[simp] theorem State.markLaunched_queue : (s.markLaunched).queue = s.queue := rfl
@[simp] theorem State.markLaunched_draws : (s.markLaunched).draws = s.draws := rfl
@[simp] theorem State.markLaunched_launched : (s.markLaunched).launched = true := rfl

end markLaunched

section placeWord
variable (s : State) (w : Word)

@[simp] theorem State.placeWord_tcnt : (s.placeWord w).tcnt = s.tcnt := rfl
@[simp] theorem State.placeWord_tod : (s.placeWord w).tod = s.tod := rfl
@[simp] theorem State.placeWord_latch : (s.placeWord w).latch = s.latch := rfl
@[simp] theorem State.placeWord_bnd : (s.placeWord w).bnd = s.bnd := rfl
@[simp] theorem State.placeWord_pidx : (s.placeWord w).pidx = s.pidx := rfl
@[simp] theorem State.placeWord_bm : (s.placeWord w).bm = s.bm := rfl
@[simp] theorem State.placeWord_bh : (s.placeWord w).bh = s.bh := rfl
@[simp] theorem State.placeWord_rsel : (s.placeWord w).rsel = s.rsel := rfl
@[simp] theorem State.placeWord_kelv : (s.placeWord w).kelv = s.kelv := rfl
@[simp] theorem State.placeWord_ports : (s.placeWord w).ports = s.ports := rfl
@[simp] theorem State.placeWord_history : (s.placeWord w).history = s.history := rfl
@[simp] theorem State.placeWord_cfg12h : (s.placeWord w).cfg12h = s.cfg12h := rfl
@[simp] theorem State.placeWord_rom : (s.placeWord w).rom = s.rom := rfl
@[simp] theorem State.placeWord_queue : (s.placeWord w).queue = .word w :: s.queue := rfl
@[simp] theorem State.placeWord_draws : (s.placeWord w).draws = s.draws := rfl
@[simp] theorem State.placeWord_launched : (s.placeWord w).launched = s.launched := rfl

end placeWord

end Sys2Proof.Machine
end

