-- ==== Sys2Proof/Laws/Ops.lean ====
section
/-! SUPPORT. For each shared operation, what it can do, said once: sequencing, the transient reads, the latch writes,
the glyph ROM, the harness queue, SELECT, and the ranges of the computed numbers. -/

namespace Sys2Proof.Machine

/-! ### Sequencing and transient reads -/

@[simp] theorem andThen_next (s : State) (k : State → Answer) : andThen (.next s) k = k s := rfl

theorem andThen_eq_next {o : Answer} {k : State → Answer} {t : State} :
    andThen o k = .next t ↔ ∃ s, o = .next s ∧ k s = .next t := by
  cases o <;> simp [andThen]

theorem andThen_assoc (o : Answer) (k l : State → Answer) :
    andThen (andThen o k) l = andThen o fun s => andThen (k s) l := by
  cases o <;> rfl

@[simp] theorem withTransient_some {α : Type} (r : Transient) (a : α) (k : α → Answer) :
    withTransient r (.some a) k = k a := rfl

@[simp] theorem withTransient_none {α : Type} (r : Transient) (k : α → Answer) :
    withTransient r .none k = .refused (.unwrittenTransient r) := rfl

theorem withTransient_eq_next {α : Type} {r : Transient} {v : Option α} {k : α → Answer} {t : State} :
    withTransient r v k = .next t ↔ ∃ a, v = .some a ∧ k a = .next t := by
  cases v <;> simp

/-- What SELECT can do: it writes RSEL and nothing else, TIME where a button is asserted, else PIDX's choice. -/
theorem selectRenderer_eq_next {s t : State} :
    selectRenderer s = .next t ↔
      ∃ m h, s.bm = .some m ∧ s.bh = .some h ∧
        (((m || h) = true ∧ t = s.setRsel .time) ∨
          ((m || h) = false ∧ ∃ p, s.pidx = .some p ∧ t = s.setRsel (scheduledRenderer p))) := by
  simp only [selectRenderer, withTransient_eq_next]
  constructor
  · rintro ⟨m, hm, h, hh, hk⟩
    refine ⟨m, h, hm, hh, ?_⟩
    split at hk
    · rename_i hb
      exact .inl ⟨hb, by simpa using hk.symm⟩
    · rename_i hb
      obtain ⟨p, hp, ht⟩ := withTransient_eq_next.mp hk
      exact .inr ⟨by simpa using hb, p, hp, by simpa using ht.symm⟩
  · rintro ⟨m, h, hm, hh, ⟨hb, rfl⟩ | ⟨hb, p, hp, rfl⟩⟩
    · exact ⟨m, hm, h, hh, by simp [hb]⟩
    · exact ⟨m, hm, h, hh, by simp [hb, hp]⟩

/-! ### The latch -/

/-- A field write sets the field's bits and no other. -/
theorem getLsbD_putBits {lo n i : Nat} (v : BitVec n) (l : BitVec 32) (hi : i < 32) :
    (putBits lo n v l).getLsbD i = if lo ≤ i ∧ i < lo + n then v.getLsbD (i - lo) else l.getLsbD i := by
  simp only [putBits, BitVec.getLsbD_or, BitVec.getLsbD_and, BitVec.getLsbD_not, BitVec.getLsbD_shiftLeft,
    BitVec.getLsbD_setWidth, BitVec.getLsbD_allOnes, hi, decide_true, Bool.true_and]
  by_cases h1 : i < lo
  · have h2 : ¬ (lo ≤ i ∧ i < lo + n) := by omega
    simp [h1, h2]
  · have h3 : i - lo < 32 := by omega
    by_cases h4 : i - lo < n
    · have h2 : lo ≤ i ∧ i < lo + n := by omega
      simp [h1, h2, h3, h4]
    · have h2 : ¬ (lo ≤ i ∧ i < lo + n) := by omega
      rw [if_neg h2, BitVec.getLsbD_of_ge v _ (by omega)]
      simp [h1, h3, h4]

/-- A one-bit write sets that bit and no other. -/
theorem getLsbD_putBit {k i : Nat} (v : Bool) (l : BitVec 32) (hi : i < 32) :
    (putBit k v l).getLsbD i = if i = k then v else l.getLsbD i := by
  rw [putBit, getLsbD_putBits _ _ hi]
  by_cases h : i = k
  · subst h
    simp
  · rw [if_neg (by omega), if_neg h]

/-- What COLWR does to each line. -/
theorem getLsbD_latchColwr {i : Nat} (v : Bool) (l : BitVec 32) (hi : i < 32) :
    (latchColwr v l).getLsbD i = if i = 23 then v else l.getLsbD i :=
  getLsbD_putBit v l hi

/-- What SEGWR does to each line. -/
theorem getLsbD_latchSegwr {i : Nat} (pat : BitVec 7) (slot : BitVec 2) (dp : Bool) (l : BitVec 32) (hi : i < 32) :
    (latchSegwr pat slot dp l).getLsbD i =
      if slot = 1#2 ∧ i = 15 then dp
      else if 8 * slot.toNat ≤ i ∧ i < 8 * slot.toNat + 7 then pat.getLsbD (i - 8 * slot.toNat)
      else l.getLsbD i := by
  by_cases hs : slot = 1#2
  · simp only [latchSegwr, hs, if_true, true_and, getLsbD_putBit _ _ hi, getLsbD_putBits _ _ hi]
  · simp only [latchSegwr, hs, if_false, false_and, getLsbD_putBits _ _ hi]

/-- No driver write changes a backplane (10_state.md R40). -/
theorem getLsbD_latchDriver_backplane (rom : List Host.Cell) (op : DriverOp) (l : BitVec 32) {i : Nat}
    (hi : i = 7 ∨ i = 31) : (latchDriver rom op l).getLsbD i = l.getLsbD i := by
  have hlt : i < 32 := by omega
  cases op with
  | segwr slot g dp =>
    have hs := slot.isLt
    have h1 : ¬ (slot = 1#2 ∧ i = 15) := by omega
    have h2 : ¬ (8 * slot.toNat ≤ i ∧ i < 8 * slot.toNat + 7) := by omega
    simp only [latchDriver, getLsbD_latchSegwr _ _ _ _ hlt, if_neg h1, if_neg h2]
  | colwr v =>
    have h1 : i ≠ 23 := by omega
    simp only [latchDriver, getLsbD_latchColwr _ _ hlt, if_neg h1]

theorem getLsbD_latchDrivers_backplane (rom : List Host.Cell) (ops : List DriverOp) (l : BitVec 32) {i : Nat}
    (hi : i = 7 ∨ i = 31) : (latchDrivers rom ops l).getLsbD i = l.getLsbD i := by
  induction ops generalizing l with
  | nil => rfl
  | cons op rest ih => rw [latchDrivers, ih, getLsbD_latchDriver_backplane rom op l hi]

theorem State.drive_bp0 (s : State) (ops : List DriverOp) : (s.drive ops).bp0 = s.bp0 :=
  getLsbD_latchDrivers_backplane _ _ _ (.inl rfl)

theorem State.drive_bp1 (s : State) (ops : List DriverOp) : (s.drive ops).bp1 = s.bp1 :=
  getLsbD_latchDrivers_backplane _ _ _ (.inr rfl)

/-! ### Ranges of the computed numbers -/

theorem todIncValue_toNat (tod : BitVec 18) : (todIncValue tod).toNat = (tod.toNat + 1) % 172800 := by
  simp only [todIncValue, dayLen, BitVec.toNat_ofNat]
  omega

theorem adjHourValue_toNat (tod : BitVec 18) : (adjHourValue tod).toNat = (tod.toNat + 7200) % 172800 := by
  simp only [adjHourValue, halfPerHour, dayLen, BitVec.toNat_ofNat]
  omega

/-- On every 18-bit value ADJ_MIN's result is below 2^18, so nothing is cut off. -/
theorem adjMinValue_toNat (tod : BitVec 18) (h : tod.toNat < 172800) :
    (adjMinValue tod).toNat = tod.toNat / 7200 * 7200 + (tod.toNat % 7200 / 120 + 1) % 60 * 120 := by
  simp only [adjMinValue, hourBlock, hourOf, minuteOf, halfPerHour, halfPerMin, minPerHour, BitVec.toNat_ofNat]
  omega

theorem phaseIdxValue_toNat (tod : BitVec 18) : (phaseIdxValue tod).toNat = tod.toNat % 120 := by
  simp only [phaseIdxValue, halfPerMin, BitVec.toNat_ofNat]
  omega

/-- The converted temperature of a query whose sample does not exceed the offset (42_renderers.md R203). -/
theorem tconv_toNat (ofs raw slope : BitVec 16) (draw : BitVec 20) (h : raw.toNat ≤ ofs.toNat) :
    (tconv ofs raw slope draw).toNat = ((ofs.toNat - raw.toNat) * slope.toNat + 2048) / 4096 := by
  have hb : (ofs.toNat - raw.toNat) * slope.toNat ≤ 65535 * 65535 :=
    Nat.mul_le_mul (by have := ofs.isLt; omega) (by have := slope.isLt; omega)
  simp only [tconv, h, if_true, tempBias, tempShift, BitVec.toNat_ofNat, Nat.shiftRight_eq_div_pow]
  generalize (ofs.toNat - raw.toNat) * slope.toNat = x at hb ⊢
  omega

theorem tcntNext_toNat (tcnt : BitVec 5) :
    (tcntNext tcnt).toNat = if tcnt.toNat = 31 then 0 else tcnt.toNat + 1 := by
  have := tcnt.isLt
  by_cases h : tcnt.toNat = 31
  · simp [tcntNext, tcntWraps, ticksPerHalf, h]
  · have h2 : ¬ (tcnt.toNat + 1 = 32) := by omega
    simp [tcntNext, tcntWraps, ticksPerHalf, h]
    omega

theorem tcntWraps_eq (tcnt : BitVec 5) : tcntWraps tcnt = decide (tcnt.toNat = 31) := by
  have := tcnt.isLt
  rw [Bool.eq_iff_iff]
  simp [tcntWraps, ticksPerHalf]

/-! ### The harness queue -/

/-- Up to the next word only `.set` directives stand. -/
theorem nextItem_none (q : List EnvItem) (p : Ports) (h : (nextItem q p).1 = .none) : (nextItem q p).2.1 = [] := by
  induction q generalizing p with
  | nil => rfl
  | cons x rest ih =>
    cases x with
    | word w => simp [nextItem] at h
    | set x => exact ih _ h

/-- A fetch touches the queue, the ports and the draw count only. -/
theorem fetch_frame (s : State) :
    (fetch s).2 = { s with queue := (fetch s).2.queue, ports := (fetch s).2.ports, draws := (fetch s).2.draws } := by
  unfold fetch
  split <;> rfl

theorem fetch_word (s : State) (w : Word) (rest : List EnvItem) (h : s.queue = .word w :: rest) :
    fetch s = (.some w, { s with queue := rest }) := by
  simp [fetch, h, nextItem]

end Sys2Proof.Machine
end

