-- ==== Sys2Proof/Laws/PerInstr.lean ====
section
/-! SUPPORT. A statement about every micro-operation as a term, with one lemma per constructor: what the encoder writes
for an ill-formed term is a reserved word (30_encoding.md R110, R111). -/

namespace Sys2Proof.Laws.IllFormedIsReserved

/-- An ill-formed term's word is refused by the decoder. -/
def Statement (i : Instr) : Prop := i.wf = false → ∃ why, decode (encode i) = .error why

theorem tick : Statement .tick := fun h => absurd h (by decide)
theorem reset : Statement .reset := fun h => absurd h (by decide)
theorem phaseInv : Statement .phaseInv := fun h => absurd h (by decide)
theorem tcntStep : Statement .tcntStep := fun h => absurd h (by decide)
theorem todInc : Statement .todInc := fun h => absurd h (by decide)
theorem phaseIdx : Statement .phaseIdx := fun h => absurd h (by decide)
theorem btnSample : Statement .btnSample := fun h => absurd h (by decide)
theorem adjMin : Statement .adjMin := fun h => absurd h (by decide)
theorem adjHour : Statement .adjHour := fun h => absurd h (by decide)
theorem select : Statement .select := fun h => absurd h (by decide)
theorem rendTime : Statement .rendTime := fun h => absurd h (by decide)
theorem rendVolt : Statement .rendVolt := fun h => absurd h (by decide)
theorem rendTemp : Statement .rendTemp := fun h => absurd h (by decide)

/-- On SEGWR words the two reserved forms are the two errors of the decoder. -/
theorem segwr (slot : BitVec 2) (g : BitVec 4) (dp : Bool) : Statement (.segwr slot g dp) := by
  have key : ∀ (slot : BitVec 2) (g : BitVec 4) (dp : Bool), segwrWf slot g dp = false →
      decode (encodeSegwr slot g dp) = .error .glyphReserved ∨
        decode (encodeSegwr slot g dp) = .error .dpOutsideSlot1 := by decide
  intro h
  exact (key slot g dp h).elim (fun e => ⟨_, e⟩) fun e => ⟨_, e⟩

theorem colwr (v : Bool) : Statement (.colwr v) := fun h => absurd h (by cases v <;> decide)

end Sys2Proof.Laws.IllFormedIsReserved
end

