-- ==== Sys2Proof/Laws/Rom.lean ====
section
/-! SUPPORT. The glyph ROM's canonical form: choosing a pattern keeps it (the block itself never writes the ROM,
20_memory.md R70), and what a read gives after a choice. -/

namespace Sys2Proof.Machine

theorem romWfFrom_cons {lo a : Nat} {b : BitVec 8} {rest : List Host.Cell} :
    romWfFrom lo ((a, b) :: rest) = true ↔
      lo ≤ a ∧ a < 15 ∧ b.toNat < 128 ∧ b.setWidth 7 ≠ defaultGlyph (BitVec.ofNat 4 a) ∧
        romWfFrom (a + 1) rest = true := by
  simp [romWfFrom, and_assoc]

theorem romWfFrom_mono {lo lo' : Nat} {rom : List Host.Cell} (h : romWfFrom lo rom = true) (hl : lo' ≤ lo) :
    romWfFrom lo' rom = true := by
  cases rom with
  | nil => rfl
  | cons c rest =>
    obtain ⟨h1, h2⟩ := romWfFrom_cons.mp h
    exact romWfFrom_cons.mpr ⟨by omega, h2⟩

theorem romWfFrom_put {rom : List Host.Cell} {lo k : Nat} {b : BitVec 8} (h : romWfFrom lo rom = true) (hl : lo ≤ k)
    (hk : k < 15) (hb : b.toNat < 128) (hd : b.setWidth 7 ≠ defaultGlyph (BitVec.ofNat 4 k)) :
    romWfFrom lo (romPut rom k b) = true := by
  induction rom generalizing lo with
  | nil => exact romWfFrom_cons.mpr ⟨hl, hk, hb, hd, rfl⟩
  | cons c rest ih =>
    obtain ⟨a, x⟩ := c
    obtain ⟨h1, h2, h3, h4, h5⟩ := romWfFrom_cons.mp h
    simp only [romPut]
    split
    · exact romWfFrom_cons.mpr ⟨hl, hk, hb, hd, romWfFrom_cons.mpr ⟨by omega, h2, h3, h4, h5⟩⟩
    · split
      · rename_i hka
        exact romWfFrom_cons.mpr ⟨hl, hk, hb, hd, romWfFrom_mono h5 (by omega)⟩
      · exact romWfFrom_cons.mpr ⟨h1, h2, h3, h4, ih h5 (by omega)⟩

theorem romWfFrom_drop {rom : List Host.Cell} {lo k : Nat} (h : romWfFrom lo rom = true) :
    romWfFrom lo (romDrop rom k) = true := by
  induction rom generalizing lo with
  | nil => rfl
  | cons c rest ih =>
    obtain ⟨a, x⟩ := c
    obtain ⟨h1, h2, h3, h4, h5⟩ := romWfFrom_cons.mp h
    simp only [romDrop]
    split
    · exact romWfFrom_mono h5 (by omega)
    · exact romWfFrom_cons.mpr ⟨h1, h2, h3, h4, ih h5⟩

/-- Choosing a pattern keeps the canonical form. -/
theorem romWf_burn {rom : List Host.Cell} (h : romWf rom = true) (g : BitVec 4) (pat : BitVec 7) :
    romWf (romBurn rom g pat) = true := by
  have hg := g.isLt
  unfold romBurn
  split
  · exact h
  · rename_i hne
    have hlt : g.toNat < 15 := by
      have : g.toNat ≠ 15 := fun e => hne (BitVec.eq_of_toNat_eq e)
      omega
    split
    · exact romWfFrom_drop h
    · rename_i hd
      refine romWfFrom_put h (Nat.zero_le _) hlt ?_ ?_
      · have := pat.isLt
        simp only [BitVec.toNat_setWidth]
        omega
      · simpa using hd

/-- The canonical form at reset: nothing is listed. -/
theorem romWf_nil : romWf [] = true := rfl

theorem romLookup_put_self (rom : List Host.Cell) (k : Nat) (b : BitVec 8) :
    romLookup (romPut rom k b) k = .some b := by
  induction rom with
  | nil => simp [romPut, romLookup]
  | cons c rest ih =>
    obtain ⟨a, x⟩ := c
    simp only [romPut]
    split
    · simp [romLookup]
    · split
      · simp [romLookup]
      · rename_i h
        simp [romLookup, Ne.symm h, ih]

theorem romLookup_put_other (rom : List Host.Cell) {k j : Nat} (b : BitVec 8) (h : j ≠ k) :
    romLookup (romPut rom k b) j = romLookup rom j := by
  induction rom with
  | nil => simp [romPut, romLookup, Ne.symm h]
  | cons c rest ih =>
    obtain ⟨a, x⟩ := c
    simp only [romPut]
    split
    · simp [romLookup, Ne.symm h]
    · split
      · rename_i hka
        subst hka
        simp [romLookup, Ne.symm h]
      · simp only [romLookup, ih]

theorem romLookup_below {rom : List Host.Cell} {lo k : Nat} (h : romWfFrom lo rom = true) (hk : k < lo) :
    romLookup rom k = .none := by
  induction rom generalizing lo with
  | nil => rfl
  | cons c rest ih =>
    obtain ⟨a, x⟩ := c
    obtain ⟨h1, -, -, -, h5⟩ := romWfFrom_cons.mp h
    have : a ≠ k := by omega
    simp only [romLookup, if_neg this]
    exact ih h5 (by omega)

theorem romLookup_drop_self {rom : List Host.Cell} {lo : Nat} (h : romWfFrom lo rom = true) (k : Nat) :
    romLookup (romDrop rom k) k = .none := by
  induction rom generalizing lo with
  | nil => rfl
  | cons c rest ih =>
    obtain ⟨a, x⟩ := c
    obtain ⟨-, -, -, -, h5⟩ := romWfFrom_cons.mp h
    simp only [romDrop]
    split
    · rename_i hak
      exact romLookup_below h5 (by omega)
    · rename_i hak
      simp [romLookup, hak, ih h5]

theorem romLookup_drop_other (rom : List Host.Cell) {k j : Nat} (h : j ≠ k) :
    romLookup (romDrop rom k) j = romLookup rom j := by
  induction rom with
  | nil => rfl
  | cons c rest ih =>
    obtain ⟨a, x⟩ := c
    simp only [romDrop]
    split
    · rename_i hak
      subst hak
      simp [romLookup, Ne.symm h]
    · simp only [romLookup, ih]

end Sys2Proof.Machine
end

