-- ==== Sys2Proof/Laws/Step.lean ====
section
/-! SUPPORT. The launch check and the step, each said once: when a launch passes, and what a step can do; and that a TICK
leaves the environment's ports alone, so that levels fixed by `.set` stay fixed over a run of TICKs. -/

namespace Sys2Proof.Machine

/-- A launch passes exactly from a `Launchable` state. -/
theorem launchRefusal_eq_none {s : State} : launchRefusal s = .none ↔ Launchable s := by
  cases hl : s.launched
  · by_cases ht : dayLen ≤ s.tod.toNat
    · have : ¬ s.tod.toNat < 172800 := by simp only [dayLen] at ht; omega
      simp [launchRefusal, Launchable, hl, ht, this]
    · have : s.tod.toNat < 172800 := by simp only [dayLen] at ht; omega
      simp [launchRefusal, Launchable, hl, ht, this, latchReachable]
  · simp [launchRefusal, Launchable, hl]

/-- What a step that answers a next state can do: it was launchable, and either no word came, and only the queue, the
ports and the draw count moved, or it ran one micro-operation from such a state with the launch over. -/
theorem step_eq_next {s t : State} (h : step s = .next t) :
    Launchable s ∧ ∃ q p d,
      t = { s with queue := q, ports := p, draws := d } ∨
        ∃ i, exec i { s with queue := q, ports := p, draws := d, launched := true } = .next t := by
  unfold step at h
  split at h
  · cases h
  · rename_i hl
    refine ⟨launchRefusal_eq_none.mp hl, ?_⟩
    have hf := fetch_frame s
    split at h
    · rename_i s1 he
      rw [he] at hf
      injection h with h
      exact ⟨_, _, _, .inl (h ▸ hf)⟩
    · rename_i w s1 he
      rw [he] at hf
      simp only [runWord] at h
      split at h
      · cases h
      · rename_i i _
        refine ⟨s1.queue, s1.ports, s1.draws, .inr ⟨i, ?_⟩⟩
        rw [show s1 = _ from hf] at h
        exact h

/-! ### The ports over a run of TICKs -/

theorem adjust_ports {s t : State} (h : adjust s = .next t) : t.ports = s.ports := by
  obtain ⟨m, -, h⟩ := withTransient_eq_next.mp h
  split at h
  · injection h with h
    rw [← h, adjMin, State.setTod_ports]
  · obtain ⟨b, -, h⟩ := withTransient_eq_next.mp h
    split at h <;> injection h with h
    · rw [← h, adjHour, State.setTod_ports]
    · rw [h]

theorem selectRenderer_ports {s t : State} (h : selectRenderer s = .next t) : t.ports = s.ports := by
  obtain ⟨_, _, -, -, ⟨-, rfl⟩ | ⟨-, _, -, rfl⟩⟩ := selectRenderer_eq_next.mp h <;> rfl

theorem render_ports {s t : State} (h : render s = .next t) : t.ports = s.ports := by
  obtain ⟨r, -, h⟩ := withTransient_eq_next.mp h
  cases r <;> injection h with h <;> exact h ▸ rfl

theorem tickSequence_ports {s t : State} (h : tickSequence s = .next t) : t.ports = s.ports := by
  simp only [tickSequence, tcntStep, State.setBnd_bnd, withTransient_some] at h
  split at h
  · obtain ⟨s1, h1, h⟩ := andThen_eq_next.mp h
    obtain ⟨s2, h2, h⟩ := andThen_eq_next.mp h
    rw [render_ports h, selectRenderer_ports h2, adjust_ports h1]
    rfl
  · injection h with h
    exact h ▸ rfl

theorem execTick_ports {s t : State} (h : execTick s = .next t) : t.ports = s.ports := by
  obtain ⟨u, hu, h⟩ := andThen_eq_next.mp h
  injection h with h
  rw [← h, State.clearTransients_ports, tickSequence_ports hu, State.clearTransients_ports]

theorem tickRun_ports {n : Nat} {s t : State} (h : tickRun n s = .next t) : t.ports = s.ports := by
  induction n generalizing s with
  | zero =>
    injection h with h
    exact h ▸ rfl
  | succ n ih =>
    obtain ⟨u, hu, h⟩ := andThen_eq_next.mp (show andThen (exec .tick s) (tickRun n) = .next t from h)
    rw [ih h, execTick_ports hu]

/-- Levels that `.set` has fixed at both buttons are the levels at every boundary. -/
theorem buttonsAtBoundaries_of_ports {s : State} {m h : Bool} (n : Nat) (hm : s.ports.btnMin = .some m)
    (hh : s.ports.btnHour = .some h) : ButtonsAtBoundaries m h n s := by
  intro k t _ ht _
  simp [State.sampleBtnMin, State.sampleBtnHour, tickRun_ports ht, hm, hh]

end Sys2Proof.Machine
end

