-- ==== Sys2Proof/Tests/Slice0.lean ====
section
/-! SUPPORT. Tests. Expected values are the spec's own: 95_test_vectors.md, by the vector's name, or the encodings of
30_encoding.md. At the end, for every statement with hypotheses, a concrete state that meets them. -/

namespace Sys2Proof.Tests

open Sys2Proof.Machine

/-! ### Well-formedness and decoding -/

/-- R105: g = 15 names no glyph. -/
theorem test_wf_refuses_glyph15 : (Instr.segwr 1#2 15#4 false).wf = false := by decide
/-- R105: dp = 1 only with slot 1. -/
theorem test_wf_refuses_dp_in_slot0 : (Instr.segwr 0#2 3#4 true).wf = false := by decide
theorem test_wf_accepts_dp_in_slot1 : (Instr.segwr 1#2 14#4 true).wf = true := by decide

theorem test_decode_tick : decode 0b0001_0000_0000_0000#16 = .ok .tick := by decide
theorem test_decode_reset : decode 0b0010_0000_0000_0000#16 = .ok .reset := by decide
theorem test_decode_phaseInv : decode 0b0011_0000_0000_0000#16 = .ok .phaseInv := by decide
theorem test_decode_tcntStep : decode 0b0100_0000_0000_0000#16 = .ok .tcntStep := by decide
theorem test_decode_todInc : decode 0b0101_0000_0000_0000#16 = .ok .todInc := by decide
theorem test_decode_phaseIdx : decode 0b0110_0000_0000_0000#16 = .ok .phaseIdx := by decide
theorem test_decode_btnSample : decode 0b0111_0000_0000_0000#16 = .ok .btnSample := by decide
theorem test_decode_adjMin : decode 0b1000_0000_0000_0000#16 = .ok .adjMin := by decide
theorem test_decode_adjHour : decode 0b1001_0000_0000_0000#16 = .ok .adjHour := by decide
theorem test_decode_select : decode 0b1010_0000_0000_0000#16 = .ok .select := by decide
theorem test_decode_rendTime : decode 0b1011_0000_0000_0001#16 = .ok .rendTime := by decide
theorem test_decode_rendVolt : decode 0b1011_0000_0000_0010#16 = .ok .rendVolt := by decide
theorem test_decode_rendTemp : decode 0b1011_0000_0000_0011#16 = .ok .rendTemp := by decide
/-- R101, Format S: slot 1, dp 1, g 3. -/
theorem test_decode_segwr : decode 0b1100_00000_01_1_0011#16 = .ok (.segwr 1#2 3#4 true) := by decide
/-- R105: SEGWR 3, 14, 0. -/
theorem test_decode_segwr_slot3 : decode 0b1100_00000_11_0_1110#16 = .ok (.segwr 3#2 14#4 false) := by decide
theorem test_decode_colwr : decode 0b1101_0000_0000_0001#16 = .ok (.colwr true) := by decide

/-- V-DC, the reserved words, each with R110's reason. -/
theorem test_decode_reserved :
    decode 0x0000#16 = .error .reservedOp ∧ decode 0x1001#16 = .error .zeroField ∧
    decode 0xB000#16 = .error .rendererNone ∧ decode 0xB004#16 = .error .zeroField ∧
    decode 0xC00F#16 = .error .glyphReserved ∧ decode 0xC010#16 = .error .dpOutsideSlot1 ∧
    decode 0xC07E#16 = .error .dpOutsideSlot1 ∧ decode 0xC080#16 = .error .zeroField ∧
    decode 0xD002#16 = .error .zeroField ∧ decode 0xE000#16 = .error .reservedOp ∧
    decode 0xFFFF#16 = .error .reservedOp := by decide

/-! ### One step of each micro-operation -/

/-- A state after its launch, 24-hour mode, no button, VOLT_IN = 33, TEMP_OFS = 1298, TEMP_RAW = 1000,
TEMP_SLOPE = 4096. -/
def at3 (tcnt : BitVec 5) (tod : BitVec 18) (latch : BitVec 32) : State :=
  { State.reset with
    cfg12h := false, tcnt := tcnt, tod := tod, latch := latch, launched := true,
    ports := ⟨.some false, .some false, .some 33#16, .some 1000#16, .some 1298#16, .some 4096#16⟩ }

/-- The same with the buttons at the given levels. -/
def withButtons (s : State) (m h : Bool) : State :=
  { s with ports := { s.ports with btnMin := .some m, btnHour := .some h } }

/-- A field of the next state, if there is one. -/
def after {α : Type} (a : Answer) (f : State → α) : Option α :=
  match a with
  | .next t => .some (f t)
  | .fault _ => .none
  | .refused _ => .none

/-- P3: the voltage flash. -/
theorem test_tick_volt :
    after (exec .tick (at3 31 107 0xC040C0C0)) (fun t => (t.tcnt, t.tod, t.latch, t.history)) =
      .some (0, 108, 0x3E4FCF00, [.evBtn, .evMeasV]) := by decide
/-- P7: both buttons, only ADJ_MIN runs. -/
theorem test_tick_both_buttons :
    after (exec .tick (withButtons (at3 31 94199 0xC69CB0BF) true true)) (fun t => (t.tod, t.latch)) =
      .some (94320, 0x7D3F4F06) := by decide
/-- RS1. -/
theorem test_reset :
    after (exec .reset { at3 17 94200 0x92C0B0F9 with history := [.evBtn] })
      (fun t => (t.tcnt, t.tod, t.latch, t.history)) = .some (0, 0, 0, [.evBtn]) := by decide
/-- PH2. -/
theorem test_phaseInv : after (exec .phaseInv (at3 0 0 0x3FBF3F3F)) (·.latch) = .some 0xC040C0C0 := by decide
/-- TC3. -/
theorem test_tcntStep_wraps : after (exec .tcntStep (at3 31 0 0)) (fun t => (t.tcnt, t.bnd)) = .some (0, .some true) := by
  decide
/-- TC2. -/
theorem test_tcntStep_counts :
    after (exec .tcntStep (at3 30 0 0)) (fun t => (t.tcnt, t.bnd)) = .some (31, .some false) := by decide
/-- TD6. -/
theorem test_todInc_wraps : after (exec .todInc (at3 0 172799 0)) (·.tod) = .some 0 := by decide
/-- TD7. -/
theorem test_phaseIdx : after (exec .phaseIdx (at3 0 94230 0)) (·.pidx) = .some (.some 30) := by decide
/-- BT2. -/
theorem test_btnSample :
    after (exec .btnSample (withButtons (at3 0 0 0) true false)) (fun t => (t.bm, t.bh, t.history)) =
      .some (.some true, .some false, [.evBtn]) := by decide
/-- AM3: minute 59 wraps in its hour. -/
theorem test_adjMin_wraps : after (exec .adjMin (at3 0 172680 0)) (·.tod) = .some 165600 := by decide
/-- AM5. -/
theorem test_adjMin_snaps : after (exec .adjMin (at3 0 94230 0)) (·.tod) = .some 94320 := by decide
/-- AH4: hour 23 wraps to hour 0. -/
theorem test_adjHour_wraps : after (exec .adjHour (at3 0 172799 0)) (·.tod) = .some 7199 := by decide
/-- AH5. -/
theorem test_adjHour : after (exec .adjHour (at3 0 86461 0)) (·.tod) = .some 93661 := by decide

/-- The state of a SELECT vector. -/
def selecting (m h : Bool) (p : BitVec 7) : State := (at3 0 0 0).setButtons m h |>.setPidx p

/-- SL3, SL6, SL7. -/
theorem test_select_schedule :
    after (exec .select (selecting false false 108)) (·.rsel) = .some (.some .volt) ∧
    after (exec .select (selecting false false 114)) (·.rsel) = .some (.some .temp) ∧
    after (exec .select (selecting false false 115)) (·.rsel) = .some (.some .none) := by decide
/-- SL10: a button shows the time. -/
theorem test_select_button : after (exec .select (selecting false true 114)) (·.rsel) = .some (.some .time) := by decide
/-- RT7. -/
theorem test_rendTime : after (exec .rendTime (at3 0 172681 0)) (·.latch) = .some 0x6FED4F5B := by decide
/-- RT5: the 12-hour mode. -/
theorem test_rendTime_12h :
    after (exec .rendTime { at3 0 94200 0 with cfg12h := true }) (·.latch) = .some 0x6D3F063F := by decide
/-- RV9: the colon is cleared. -/
theorem test_rendVolt :
    after (exec .rendVolt (at3 0 0 0x00800000)) (fun t => (t.latch, t.history)) = .some (0x3E4FCF00, [.evMeasV]) := by
  decide
/-- RV8: 65535 is shown as 35. -/
theorem test_rendVolt_truncates :
    after (exec .rendVolt { at3 0 0 0 with ports := { (at3 0 0 0).ports with voltIn := .some 65535#16 } }) (·.latch) =
      .some 0x3E6DCF00 := by decide
/-- RC8, with TK2's ports. -/
theorem test_rendTemp :
    after (exec .rendTemp (at3 0 0 0)) (fun t => (t.latch, t.kelv, t.history)) =
      .some (0x39636D5B, .some 298, [.evMeasT]) := by decide
/-- W6: zero delta shows Minus and 3. -/
theorem test_rendTemp_below :
    after (exec .rendTemp { at3 0 0 0 with ports := { (at3 0 0 0).ports with tempRaw := .some 1298#16 } }) (·.latch) =
      .some 0x39634F40 := by decide
/-- SW3: DP cleared by slot 1 with dp = 0. -/
theorem test_segwr_clears_dp :
    after (exec (.segwr 1#2 8#4 false) (at3 0 0 0xFFFFFFFF)) (·.latch) = .some 0xFFFF7FFF := by decide
/-- SW4: COLON kept by slot 2. -/
theorem test_segwr_keeps_colon :
    after (exec (.segwr 2#2 0#4 false) (at3 0 0 0x00800000)) (·.latch) = .some 0x00BF0000 := by decide
/-- CW3: DP untouched. -/
theorem test_colwr_keeps_dp : after (exec (.colwr false) (at3 0 0 0x0000CF00)) (·.latch) = .some 0x0000CF00 := by decide
/-- CW1. -/
theorem test_colwr_sets : after (exec (.colwr true) (at3 0 0 0x3F3F3F3F)) (·.latch) = .some 0x3FBF3F3F := by decide

/-- The word placed for the next step runs first after reset: TICK inverts the latch (W1). -/
theorem test_step_runs_placed_word :
    after (step (State.reset.withFetchWord 16 0x1000)) (fun t => (t.tcnt, t.latch)) = .some (1, 0xFFFFFFFF) := by decide

/-- P8's directive SEGWR.DP and a `.set` assemble to their items (R113). -/
theorem test_assemble :
    (assembleFrom false .initial [.segwrDp 1 (.number 3), .set (.voltIn 33), .segwr 3 .vee .none, .colwr 0]).map (·.2) =
      .some [.word 0xC033, .set (.voltIn 33), .word 0xC06E, .word 0xD000] := by decide

/-- P3's `.state` lines give its start state (R113). -/
theorem test_state_directives :
    ((launchProgram false
      [.state (.tcnt 31), .state (.tod 107), .state (.latch 0xC040C0C0), .set (.voltIn 33), .plain .tick]).map
        fun s => (s.tcnt, s.tod, s.latch, s.queue)) =
      .some (31, 107, 0xC040C0C0, [.set (.voltIn 33), .word 0x1000]) := by decide

/-- R113, D29: no `.state` after a word, none out of range, none that breaks R57; and a state that breaks R57 is no launch
state, whatever the first word is. -/
theorem test_state_directives_refused :
    launchProgram false [.plain .tick, .state (.tod 0)] = .none ∧
    launchProgram false [.state (.tcnt 32), .plain .tick] = .none ∧
    launchProgram false [.state (.tod 172800), .plain .tick] = .none ∧
    launchProgram false [.state (.latch 0x80000000), .segwr 3 .vee .none, .plain .tick] = .none ∧
    step (State.launch false 0 0 0x80000000 [.word 0xC06E#16]) = .refused .launchUnreachable :=
  ⟨by decide, by decide, by decide, by decide, rfl⟩

/-- R8: the reference values agree with each other. -/
theorem test_parameters_agree :
    halfPerHour = minPerHour * halfPerMin ∧ dayLen = hoursPerDay * halfPerHour ∧ normalBelow = voltAt ∧
    tempAt < halfPerMin ∧ tempBias = 2 ^ (tempShift - 1) ∧ ticksPerHalf % 2 = 0 := by decide

/-! ### A concrete state for the hypotheses of each statement -/

/-- A state between steps: no transient holds a value. -/
theorem settled_at3 (a : BitVec 5) (b : BitVec 18) (c : BitVec 32) : Settled (at3 a b c) :=
  ⟨rfl, rfl, rfl, rfl, rfl, rfl⟩

/-- TickWritesAtEvenParity, HardwareStepsKeepDriven: a driven state at a boundary (P3), and one off it (PH5). -/
theorem witness_driven :
    (Driven (at3 31 107 0xC040C0C0) ∧ (at3 31 107 0xC040C0C0).tcnt.toNat = 31) ∧
    (Driven (at3 30 500 0x663F3F3F) ∧ (at3 30 500 0x663F3F3F).tcnt.toNat ≠ 31) :=
  ⟨⟨⟨⟨by decide, by decide, fun _ h => (by cases h), rfl⟩, settled_at3 _ _ _, by decide⟩, by decide⟩,
    ⟨⟨⟨by decide, by decide, fun _ h => (by cases h), rfl⟩, settled_at3 _ _ _, by decide⟩, by decide⟩⟩

/-- P3's start state as a launch state, with the given items. -/
def launchP3 (items : List EnvItem) : State := State.launch false 31 107 0xC040C0C0 items

theorem launchable_P3 (items : List EnvItem) : Launchable (launchP3 items) :=
  .inr ⟨(by decide : (107#18).toNat < 172800),
    (by decide : (0xC040C0C0#32).getLsbD 7 = (0xC040C0C0#32).getLsbD 31),
    (by decide : (0xC040C0C0#32).getLsbD 7 = (31#5).getLsbD 0)⟩

/-- StepRunsDecodedWord: after the launch, and in a launch state at the end of TOD's range (P9). -/
theorem witness_step_runs :
    (((at3 0 0 0).placeWord 0xA000#16).queue = [.word 0xA000#16] ∧ decode 0xA000#16 = .ok .select ∧
      Launchable ((at3 0 0 0).placeWord 0xA000#16)) ∧
    ((State.launch false 31 172799 0xC69CB0BF [.word 0x1000#16]).queue = [.word 0x1000#16] ∧
      decode 0x1000#16 = .ok .tick ∧ Launchable (State.launch false 31 172799 0xC69CB0BF [.word 0x1000#16])) :=
  ⟨⟨rfl, by decide, .inl rfl⟩, ⟨rfl, by decide, .inr ⟨by decide, by decide, by decide⟩⟩⟩

/-- StepRefusesReservedWord, in a launch state and after the launch. -/
theorem witness_reserved_word :
    decode 0xFFFF#16 = .error .reservedOp ∧
    ((launchP3 [.word 0xFFFF#16]).queue = [.word 0xFFFF#16] ∧ Launchable (launchP3 [.word 0xFFFF#16])) ∧
    (((at3 0 0 0).placeWord 0xFFFF#16).queue = [.word 0xFFFF#16] ∧ Launchable ((at3 0 0 0).placeWord 0xFFFF#16)) :=
  ⟨by decide, ⟨rfl, launchable_P3 _⟩, ⟨rfl, .inl rfl⟩⟩

/-- LaunchOutOfRangeIsRefused, at the boundary. -/
theorem witness_launch_range :
    (State.launch false 0 172800 0 []).launched = false ∧ 172800 ≤ (State.launch false 0 172800 0 []).tod.toNat := by
  decide

/-- UnreachableLaunchIsRefused: unequal backplanes with a SEGWR to run (SW7's LATCH), and a parity against TCNT with
nothing to run. -/
theorem witness_launch_latch :
    ((State.launch false 0 172799 0x80000000 [.word 0xC06E#16]).launched = false ∧
      (State.launch false 0 172799 0x80000000 [.word 0xC06E#16]).tod.toNat < 172800 ∧
      (State.launch false 0 172799 0x80000000 [.word 0xC06E#16]).bp0 ≠
        (State.launch false 0 172799 0x80000000 [.word 0xC06E#16]).bp1) ∧
    ((State.launch false 1 172799 0 []).launched = false ∧ (State.launch false 1 172799 0 []).tod.toNat < 172800 ∧
      (State.launch false 1 172799 0 []).par ≠ (State.launch false 1 172799 0 []).tcnt.getLsbD 0) := by decide

/-- StepTakesTheStrobes: the state after reset, another launch state, and a state after its launch. -/
theorem witness_strobes :
    (State.reset.queue = [] ∧ Launchable State.reset) ∧ ((launchP3 []).queue = [] ∧ Launchable (launchP3 [])) ∧
    ((at3 0 0 0).queue = [] ∧ Launchable (at3 0 0 0)) :=
  ⟨⟨rfl, .inr ⟨by decide, by decide, by decide⟩⟩, ⟨rfl, launchable_P3 _⟩, ⟨rfl, .inl rfl⟩⟩

/-- SetDirectiveFixesItsPort. -/
theorem witness_set : (State.launch false 0 0 0 [.set (.voltIn 33)]).queue = .set (.voltIn 33) :: [] := by decide

/-- ResetGivesDrivenState and RomReadAfterChoice: the default ROM and one with another pattern for V. -/
theorem witness_rom :
    romWf State.reset.rom = true ∧ romWf (romBurn [] 14#4 0x1C#7) = true ∧ (14#4 : BitVec 4).toNat < 15 := by decide

/-- TcntStepCountsAndWraps: both clauses, where they meet. -/
theorem witness_tcnt : (at3 31 0 0).tcnt.toNat = 31 ∧ (at3 30 0 0).tcnt.toNat < 31 := by decide

/-- AdjMinSnapsToNextMinute, AdjHourAdvancesTheHour, RendTimeShowsTheTime: the end of TOD's range. -/
theorem witness_tod : (at3 0 172799 0).tod.toNat < 172800 := by decide

/-- SelectChoosesByPriority: each clause at a boundary of its range. -/
theorem witness_select :
    (∀ m h p, (selecting m h p).bm = .some m ∧ (selecting m h p).bh = .some h ∧ (selecting m h p).pidx = .some p) ∧
    (107#7).toNat < 108 ∧ (108#7).toNat = 108 ∧ (114#7).toNat = 114 ∧
    (108 < (109#7).toNat ∧ (109#7).toNat ≠ 114) ∧ (108 < (115#7).toNat ∧ (115#7).toNat ≠ 114) :=
  ⟨fun _ _ _ => ⟨rfl, rfl, rfl⟩, by decide⟩

/-- SelectRefusesUnwrittenTransient: each clause. -/
theorem witness_select_unwritten :
    (at3 0 0 0).bm = .none ∧
    ({ at3 0 0 0 with bm := .some true } : State).bm = .some true ∧
    ({ at3 0 0 0 with bm := .some true } : State).bh = .none ∧
    ((at3 0 0 0).setButtons false false).bm = .some false ∧ ((at3 0 0 0).setButtons false false).bh = .some false ∧
    ((at3 0 0 0).setButtons false false).pidx = .none ∧
    ((at3 0 0 0).setButtons false true).bh = .some true := by decide

/-- A state whose conversion has the given offset and sample. -/
def converting (ofs raw slope : BitVec 16) : State :=
  { at3 0 0 0 with ports := ⟨.none, .none, .none, .some raw, .some ofs, .some slope⟩ }

/-- RendTempShowsTheTemperature and ConversionFitsAndRounds: equal offset and sample, the sample one above, KELV 272
and KELV 273. -/
theorem witness_temp :
    (converting 500 500 1234).sampleTempRaw.toNat ≤ (converting 500 500 1234).sampleTempOfs.toNat ∧
    (converting 500 501 1234).sampleTempOfs.toNat < (converting 500 501 1234).sampleTempRaw.toNat ∧
    (converting 272 0 4096).sampleKelvin.toNat = 272 ∧ (converting 273 0 4096).sampleKelvin.toNat = 273 ∧
    (65535#16).toNat ≤ (65535#16).toNat := by decide

/-- StateLineAfterAWordIsRefused: the first word is a pseudo-instruction's. -/
theorem witness_late_state : ∃ l ∈ [AsmLine.set (.voltIn 33), AsmLine.ticks 1], YieldsWord l :=
  ⟨.ticks 1, by simp, _, 0x1000#16, rfl, by decide⟩

/-- RenderersForgetTheOldDisplay: two states that agree on the inputs of all three renderers and differ in TCNT, LATCH and a
transient. -/
theorem witness_forget :
    let s := at3 0 172799 0
    let u : State := { at3 31 172799 0xC040C0C0 with bm := .some true }
    s.latch ≠ u.latch ∧ s.tcnt ≠ u.tcnt ∧ s.bm ≠ u.bm ∧ (∀ g, romRead s.rom g = romRead u.rom g) ∧ s.tod = u.tod ∧
      s.cfg12h = u.cfg12h ∧ s.sampleVoltIn = u.sampleVoltIn ∧ s.sampleKelvin = u.sampleKelvin :=
  ⟨by decide, by decide, by decide, fun _ => rfl, rfl, rfl, rfl, rfl⟩

/-- RenderersIssueNoReservedWord: a write of each renderer. -/
theorem witness_issued :
    DriverOp.segwr 0#2 1#4 false ∈ timeWrites false 94200 ∧ DriverOp.segwr 1#2 3#4 true ∈ voltWrites 33 ∧
    DriverOp.segwr 0#2 11#4 false ∈ tempWrites 272 := by decide

/-- VoltageIsShownModulo100. -/
theorem witness_voltage : (105#16).toNat % 100 = (5#16).toNat % 100 := by decide

/-- SegwrWritesItsSlot and SegwrRefusesReservedForms: the forms at the ends of their ranges. -/
theorem witness_segwr :
    ((14#4).toNat < 15 ∧ (true = true → (1#2).toNat = 1)) ∧ ((0#4).toNat < 15 ∧ (false = true → (3#2).toNat = 1)) ∧
    (15#4).toNat = 15 ∧ ((14#4).toNat ≠ 15 ∧ (2#2).toNat ≠ 1) := by decide

/-- WrittenValueIsVisibleAtEvenParity, ColwrWritesTheColon: writes at both parities, slot 1 among them. -/
theorem witness_visible :
    (∃ t, exec (.segwr 1#2 3#4 true) (at3 0 0 0) = .next t) ∧ (at3 0 0 0).par = false ∧
    (∃ t, exec (.segwr 1#2 3#4 true) (at3 1 0 0xFFFFFFFF) = .next t) ∧ (at3 1 0 0xFFFFFFFF).par = true ∧
    (∃ t, exec (.colwr true) (at3 0 0 0) = .next t) ∧ (∃ t, exec (.colwr true) (at3 1 0 0xFFFFFFFF) = .next t) ∧
    (1#2).toNat = 1 :=
  ⟨⟨_, rfl⟩, by decide, ⟨_, rfl⟩, by decide, ⟨_, rfl⟩, ⟨_, rfl⟩, by decide⟩

/-- NonBoundaryTick, TickRefinesItsMicroOperations off the boundary. -/
theorem witness_nonboundary :
    (at3 30 500 0x663F3F3F).tcnt.toNat < 31 ∧ Settled (at3 30 500 0x663F3F3F) :=
  ⟨by decide, settled_at3 _ _ _⟩

/-- BoundaryTickAdvancesTod, BoundaryTickEffect, TickRefinesItsMicroOperations: a boundary, with each button choice. -/
theorem witness_boundary :
    (at3 31 172799 0).tcnt.toNat = 31 ∧
    (withButtons (at3 31 172799 0) true true).sampleBtnMin = true ∧
    (withButtons (at3 31 172799 0) false true).sampleBtnMin = false ∧
    (withButtons (at3 31 172799 0) false true).sampleBtnHour = true ∧
    (at3 31 172799 0).sampleBtnMin = false ∧ (at3 31 172799 0).sampleBtnHour = false := by decide

/-- DisplayIsSteadyBetweenRenderers: off a boundary, and at one that selects no renderer (PH6: unit 109). -/
theorem witness_steady : OnlyInverts (at3 30 108 0x3E4FCF00) ∧ OnlyInverts (at3 31 108 0xC1B030FF) :=
  ⟨fun h => absurd h (by decide), fun _ => by decide⟩

/-- TwoTicksRestoreEveryLine: the second TICK is PH6's boundary, which selects no renderer. -/
theorem witness_two_ticks :
    OnlyInverts (at3 30 108 0x3E4FCF00) ∧ ∀ t, exec .tick (at3 30 108 0x3E4FCF00) = .next t → OnlyInverts t := by
  refine ⟨witness_steady.1, fun t h => ?_⟩
  have ht : t = at3 31 108 0xC1B030FF := Host.Outcome.next.inj (h.symm.trans rfl)
  exact ht ▸ witness_steady.2

/-- MinuteSchedule: each clause at the ends of its range: units 0, 107, 108, 109, 113, 114, 115, 119. -/
theorem witness_schedule :
    (∀ tod, (at3 31 tod 0).tcnt.toNat = 31 ∧ (at3 31 tod 0).sampleBtnMin = false ∧
      (at3 31 tod 0).sampleBtnHour = false) ∧
    ((at3 31 172799 0).tod.toNat + 1) % 172800 % 120 = 0 ∧ ((at3 31 106 0).tod.toNat + 1) % 172800 % 120 = 107 ∧
    ((at3 31 107 0).tod.toNat + 1) % 172800 % 120 = 108 ∧ ((at3 31 108 0).tod.toNat + 1) % 172800 % 120 = 109 ∧
    ((at3 31 112 0).tod.toNat + 1) % 172800 % 120 = 113 ∧ ((at3 31 113 0).tod.toNat + 1) % 172800 % 120 = 114 ∧
    ((at3 31 114 0).tod.toNat + 1) % 172800 % 120 = 115 ∧ ((at3 31 118 0).tod.toNat + 1) % 172800 % 120 = 119 :=
  ⟨fun _ => ⟨rfl, rfl, rfl⟩, by decide⟩

/-- StepKeepsParametersAndHistory, StepKeepsSound: a sound state whose step answers a next state. -/
theorem witness_sound_step :
    Sound ((at3 0 0 0).placeWord 0x7000#16) ∧ ∃ t, step ((at3 0 0 0).placeWord 0x7000#16) = .next t :=
  ⟨⟨by decide, by decide, fun _ h => (by cases h), rfl⟩, ⟨_, rfl⟩⟩

/-- HardwareStepsKeepDriven: TICK and RESET from a driven state, and a step the strobes start, whichever comes. -/
theorem witness_driven_steps :
    (∃ t, exec .tick (at3 31 107 0xC040C0C0) = .next t) ∧ (∃ t, exec .reset (at3 31 107 0xC040C0C0) = .next t) ∧
    ∃ t, step (at3 31 107 0xC040C0C0) = .next t := by
  refine ⟨⟨_, rfl⟩, ⟨_, rfl⟩, ?_⟩
  have hf : fetch (at3 31 107 0xC040C0C0) =
      (strobeWord (Config.resetStrobe 0) (Config.tickStrobe 0), { at3 31 107 0xC040C0C0 with draws := 1 }) := rfl
  have hr : launchRefusal (at3 31 107 0xC040C0C0) = .none := by decide
  simp only [step, hr, hf]
  cases Config.resetStrobe 0 <;> cases Config.tickStrobe 0 <;> exact ⟨_, rfl⟩

/-- TodCountsHalfSeconds and HeldHoursButtonRepeats: levels fixed before a RESET, for any number of TICKs; and
DisplayIsBlankAfterReset. -/
theorem witness_held_levels (n : Nat) :
    ButtonsAtBoundaries false false 32 (at3 31 172799 0) ∧
    (∃ r, exec .reset (at3 0 0 0) = .next r ∧ ButtonsAtBoundaries false false n r) ∧
    (∃ r, exec .reset (withButtons (at3 0 0 0) false true) = .next r ∧ ButtonsAtBoundaries false true n r) ∧
    (31 : Nat) ≤ 31 :=
  ⟨buttonsAtBoundaries_of_ports _ rfl rfl, ⟨_, rfl, buttonsAtBoundaries_of_ports _ rfl rfl⟩,
    ⟨_, rfl, buttonsAtBoundaries_of_ports _ rfl rfl⟩, Nat.le_refl _⟩

end Sys2Proof.Tests
end

/-! PROOFS. 10_state.md: what the state holds after reset, what each step keeps, and the cadence of the TICKs. First the
layer the proofs use: the TICK as a function of the state, and what holds across every operation the block runs. -/

namespace Sys2Proof.Machine

/-! ### The TICK as a function of the state -/

/-- TOD after the adjustment of a boundary, with BM and BH at the given levels (40_phase_engine.md R130). -/
def adjustedTod (m h : Bool) (tod : BitVec 18) : BitVec 18 :=
  if m then adjMinValue tod else if h then adjHourValue tod else tod

theorem adjust_of_buttons {s : State} {m h : Bool} (hm : s.bm = .some m) (hh : s.bh = .some h) :
    adjust s = .next (s.setTod (adjustedTod m h s.tod)) := by
  cases m
  · cases h <;> simp only [adjust, hm, hh, withTransient_some] <;> rfl
  · simp only [adjust, hm, withTransient_some]
    rfl

/-- SELECT's choice, with BM, BH and PIDX at the given values (41_scheduler.md R170). -/
def chosenRenderer (m h : Bool) (p : BitVec 7) : RSel := if m || h then .time else scheduledRenderer p

theorem selectRenderer_of_transients {s : State} {m h : Bool} {p : BitVec 7} (hm : s.bm = .some m) (hh : s.bh = .some h)
    (hp : s.pidx = .some p) : selectRenderer s = .next (s.setRsel (chosenRenderer m h p)) := by
  simp only [selectRenderer, chosenRenderer, hm, hh, hp, withTransient_some]
  split <;> rfl

/-- The state the named renderer leaves (R130). -/
def rendered (r : RSel) (s : State) : State :=
  match r with
  | .none => s
  | .time => rendTime s
  | .volt => rendVolt s
  | .temp => rendTemp s

theorem render_of_rsel {s : State} {r : RSel} (hr : s.rsel = .some r) : render s = .next (rendered r s) := by
  simp only [render, hr, withTransient_some]
  cases r <;> rfl

/-- The renderer a boundary reached in s selects: by the levels sampled there and the unit before the adjustment. -/
def State.boundaryRenderer (s : State) : RSel :=
  chosenRenderer s.sampleBtnMin s.sampleBtnHour (phaseIdxValue (todIncValue s.tod))

/-- The state in which the adjustment of a boundary reached in s begins. -/
def State.buttonsSampled (s : State) : State := btnSample (phaseIdx (todInc s))

/-- The state in which SELECT begins at a boundary reached in s. -/
def State.buttonsAdjusted (s : State) : State :=
  s.buttonsSampled.setTod (adjustedTod s.sampleBtnMin s.sampleBtnHour s.buttonsSampled.tod)

/-- The state in which the renderer of a boundary reached in s begins. -/
def State.rendererSelected (s : State) : State := s.buttonsAdjusted.setRsel s.boundaryRenderer

/-- A boundary always completes: BM, BH, PIDX and RSEL are written before they are read (10_state.md R45). -/
theorem boundary_eq (s : State) : boundary s = .next (rendered s.boundaryRenderer s.rendererSelected) := by
  have hadj : adjust s.buttonsSampled = .next s.buttonsAdjusted := adjust_of_buttons rfl rfl
  have hsel : selectRenderer s.buttonsAdjusted = .next s.rendererSelected := selectRenderer_of_transients rfl rfl rfl
  have hrend : render s.rendererSelected = .next (rendered s.boundaryRenderer s.rendererSelected) := render_of_rsel rfl
  rw [boundary, ← State.buttonsSampled, hadj, andThen_next, hsel, andThen_next, hrend]

/-- The state after the first two micro-operations of a TICK (40_phase_engine.md R133). -/
def State.tickBegun (s : State) : State := tcntStep (phaseInv s.clearTransients)

/-- The state a TICK leaves. -/
def State.ticked (s : State) : State :=
  (if tcntWraps s.tcnt then rendered s.tickBegun.boundaryRenderer s.tickBegun.rendererSelected
    else s.tickBegun).clearTransients

/-- A TICK completes from every state (R131). -/
theorem exec_tick (s : State) : exec .tick s = .next s.ticked := by
  have hexec : exec .tick s = execTick s := rfl
  have hseq : tickSequence s.clearTransients =
      if tcntWraps s.tcnt then boundary s.tickBegun else .next s.tickBegun := rfl
  rw [hexec, execTick, hseq, State.ticked]
  split
  · rw [boundary_eq, andThen_next]
  · rw [andThen_next]

theorem tickRun_eq (n : Nat) (s : State) : tickRun n s = .next (State.ticked^[n] s) := by
  induction n generalizing s with
  | zero => rfl
  | succ n ih =>
    calc tickRun (n + 1) s = andThen (exec .tick s) (tickRun n) := rfl
      _ = .next (State.ticked^[n + 1] s) := by rw [exec_tick, andThen_next, ih, Function.iterate_succ_apply]

/-- The state a RESET leaves. -/
def State.resetDone (s : State) : State := (((s.setTcnt 0#5).setTod 0#18).setLatch 0#32).clearTransients

theorem exec_reset (s : State) : exec .reset s = .next s.resetDone := rfl

theorem resetDone_par (s : State) : s.resetDone.par = false := (by decide : (0#32).getLsbD 7 = false)

theorem resetDone_bp1 (s : State) : s.resetDone.bp1 = false := (by decide : (0#32).getLsbD 31 = false)

/-- No transient holds a value where they are all dropped. -/
theorem settled_clearTransients (s : State) : Settled s.clearTransients := ⟨rfl, rfl, rfl, rfl, rfl, rfl⟩

theorem settled_ticked (s : State) : Settled s.ticked := settled_clearTransients _

theorem settled_resetDone (s : State) : Settled s.resetDone := settled_clearTransients _

/-! ### What holds across every operation -/

/-- A relation of a state to a later one that holds across every operation a TICK runs after BTN_SAMPLE: the adjustment,
SELECT and the renderers. -/
structure HoldsAfterButtons (R : State → State → Prop) : Prop where
  refl : ∀ s, R s s
  trans : ∀ {s t u}, R s t → R t u → R s u
  of_adjMin : ∀ s, R s (adjMin s)
  of_adjHour : ∀ s, R s (adjHour s)
  of_setRsel : ∀ s v, R s (s.setRsel v)
  of_endQuery : ∀ s ev, ev ≠ .evBtn → R s (s.endQuery ev)
  of_setKelv : ∀ s v, R s (s.setKelv v)
  of_drive : ∀ s ops, R s (s.drive ops)

/-- A relation that holds across every operation of the block. -/
structure HoldsAcrossOperations (R : State → State → Prop) : Prop extends HoldsAfterButtons R where
  of_phaseInv : ∀ s, R s (phaseInv s)
  of_tcntStep : ∀ s, R s (tcntStep s)
  of_todInc : ∀ s, R s (todInc s)
  of_phaseIdx : ∀ s, R s (phaseIdx s)
  of_btnSample : ∀ s, R s (btnSample s)
  of_clearTransients : ∀ s, R s s.clearTransients
  of_reset : ∀ s, R s s.resetDone

section
variable {R : State → State → Prop}

theorem HoldsAfterButtons.of_adjusted (hR : HoldsAfterButtons R) (m h : Bool) (s : State) :
    R s (s.setTod (adjustedTod m h s.tod)) := by
  cases m
  · cases h
    · exact hR.refl s
    · exact hR.of_adjHour s
  · exact hR.of_adjMin s

theorem HoldsAfterButtons.of_rendVolt (hR : HoldsAfterButtons R) (s : State) : R s (rendVolt s) :=
  hR.trans (hR.of_endQuery s .evMeasV (by decide)) (hR.of_drive _ _)

theorem HoldsAfterButtons.of_rendTemp (hR : HoldsAfterButtons R) (s : State) : R s (rendTemp s) :=
  hR.trans (hR.of_endQuery s .evMeasT (by decide)) (hR.trans (hR.of_setKelv _ _) (hR.of_drive _ _))

theorem HoldsAfterButtons.of_rendered (hR : HoldsAfterButtons R) (r : RSel) (s : State) : R s (rendered r s) := by
  cases r with
  | none => exact hR.refl s
  | time => exact hR.of_drive s _
  | volt => exact hR.of_rendVolt s
  | temp => exact hR.of_rendTemp s

/-- It holds from BTN_SAMPLE to the end of the boundary. -/
theorem HoldsAfterButtons.of_boundary (hR : HoldsAfterButtons R) (s : State) :
    R s.buttonsSampled (rendered s.boundaryRenderer s.rendererSelected) :=
  hR.trans (hR.of_adjusted _ _ _) (hR.trans (hR.of_setRsel _ _) (hR.of_rendered _ _))

theorem HoldsAcrossOperations.of_ticked (hR : HoldsAcrossOperations R) (s : State) : R s s.ticked := by
  have hbegun : R s s.tickBegun :=
    hR.trans (hR.of_clearTransients s) (hR.trans (hR.of_phaseInv _) (hR.of_tcntStep _))
  have hsampled : R s s.tickBegun.buttonsSampled :=
    hR.trans hbegun (hR.trans (hR.of_todInc _) (hR.trans (hR.of_phaseIdx _) (hR.of_btnSample _)))
  refine hR.trans ?_ (hR.of_clearTransients _)
  split
  · exact hR.trans hsampled (hR.of_boundary _)
  · exact hbegun

/-- It holds across every micro-operation that completes. -/
theorem HoldsAcrossOperations.of_exec (hR : HoldsAcrossOperations R) {i : Instr} {s t : State}
    (h : exec i s = .next t) : R s t := by
  cases i with
  | tick =>
    rw [exec_tick] at h
    cases h
    exact hR.of_ticked s
  | reset => cases h; exact hR.of_reset s
  | phaseInv => cases h; exact hR.of_phaseInv s
  | tcntStep => cases h; exact hR.of_tcntStep s
  | todInc => cases h; exact hR.of_todInc s
  | phaseIdx => cases h; exact hR.of_phaseIdx s
  | btnSample => cases h; exact hR.of_btnSample s
  | adjMin => cases h; exact hR.of_adjMin s
  | adjHour => cases h; exact hR.of_adjHour s
  | select =>
    obtain ⟨_, _, -, -, ⟨-, rfl⟩ | ⟨-, _, -, rfl⟩⟩ := selectRenderer_eq_next.mp h
    · exact hR.of_setRsel s _
    · exact hR.of_setRsel s _
  | rendTime => cases h; exact hR.of_drive s _
  | rendVolt => cases h; exact hR.of_rendVolt s
  | rendTemp => cases h; exact hR.of_rendTemp s
  | segwr slot g dp =>
    simp only [exec, execSegwr] at h
    split at h
    · cases h; exact hR.of_drive s _
    · cases h
  | colwr v => cases h; exact hR.of_drive s _

end

/-! ### The three relations the statements need -/

/-- The parameters and the harness queue as before, and no event taken from the history (10_state.md R52, R53). -/
structure KeepsParameters (s t : State) : Prop where
  cfg12h : t.cfg12h = s.cfg12h
  rom : t.rom = s.rom
  queue : t.queue = s.queue
  history : s.history <+: t.history

theorem KeepsParameters.setTod (s : State) (v : BitVec 18) : KeepsParameters s (s.setTod v) :=
  ⟨rfl, rfl, rfl, List.prefix_rfl⟩

theorem keepsParameters_holds : HoldsAcrossOperations KeepsParameters where
  refl _ := ⟨rfl, rfl, rfl, List.prefix_rfl⟩
  trans h k := ⟨k.cfg12h.trans h.cfg12h, k.rom.trans h.rom, k.queue.trans h.queue, h.history.trans k.history⟩
  of_adjMin s := .setTod s _
  of_adjHour s := .setTod s _
  of_setRsel _ _ := ⟨rfl, rfl, rfl, List.prefix_rfl⟩
  of_endQuery _ _ _ := ⟨rfl, rfl, rfl, List.prefix_append _ _⟩
  of_setKelv _ _ := ⟨rfl, rfl, rfl, List.prefix_rfl⟩
  of_drive _ _ := ⟨rfl, rfl, rfl, List.prefix_rfl⟩
  of_phaseInv _ := ⟨rfl, rfl, rfl, List.prefix_rfl⟩
  of_tcntStep _ := ⟨rfl, rfl, rfl, List.prefix_rfl⟩
  of_todInc s := .setTod s _
  of_phaseIdx _ := ⟨rfl, rfl, rfl, List.prefix_rfl⟩
  of_btnSample _ := ⟨rfl, rfl, rfl, List.prefix_append _ _⟩
  of_clearTransients _ := ⟨rfl, rfl, rfl, List.prefix_rfl⟩
  of_reset _ := ⟨rfl, rfl, rfl, List.prefix_rfl⟩

theorem todIncValue_lt (tod : BitVec 18) : (todIncValue tod).toNat < dayLen := by
  rw [todIncValue_toNat]
  exact Nat.mod_lt _ (by decide)

theorem adjHourValue_lt (tod : BitVec 18) : (adjHourValue tod).toNat < dayLen := by
  rw [adjHourValue_toNat]
  exact Nat.mod_lt _ (by decide)

theorem adjMinValue_lt (tod : BitVec 18) (h : tod.toNat < dayLen) : (adjMinValue tod).toNat < dayLen := by
  simp only [dayLen] at h ⊢
  rw [adjMinValue_toNat tod h]
  omega

theorem phaseIdxValue_lt (tod : BitVec 18) : (phaseIdxValue tod).toNat < halfPerMin := by
  rw [phaseIdxValue_toNat]
  exact Nat.mod_lt _ (by decide)

theorem phaseInv_bp0 (s : State) : (phaseInv s).bp0 = !s.bp0 := by simp [phaseInv, State.bp0]

theorem phaseInv_bp1 (s : State) : (phaseInv s).bp1 = !s.bp1 := by simp [phaseInv, State.bp1]

/-- Where PIDX holds a value it is below HALF_PER_MIN (R45). -/
def PidxInRange (s : State) : Prop := ∀ p, s.pidx = .some p → p.toNat < halfPerMin

/-- TOD and PIDX stay in range and the backplanes stay equal, each whatever the others are (R34, R40, R45). -/
structure KeepsRanges (s t : State) : Prop where
  tod : s.tod.toNat < dayLen → t.tod.toNat < dayLen
  bp : s.bp0 = s.bp1 → t.bp0 = t.bp1
  pidx : PidxInRange s → PidxInRange t

theorem KeepsRanges.setTod (s : State) {v : BitVec 18} (h : s.tod.toNat < dayLen → v.toNat < dayLen) :
    KeepsRanges s (s.setTod v) :=
  ⟨h, id, id⟩

theorem keepsRanges_holds : HoldsAcrossOperations KeepsRanges where
  refl _ := ⟨id, id, id⟩
  trans h k := ⟨k.tod ∘ h.tod, k.bp ∘ h.bp, k.pidx ∘ h.pidx⟩
  of_adjMin s := .setTod s (adjMinValue_lt s.tod)
  of_adjHour s := .setTod s fun _ => adjHourValue_lt s.tod
  of_setRsel _ _ := ⟨id, id, id⟩
  of_endQuery _ _ _ := ⟨id, id, id⟩
  of_setKelv _ _ := ⟨id, id, id⟩
  of_drive s ops := ⟨id, fun h => by rw [State.drive_bp0, State.drive_bp1, h], id⟩
  of_phaseInv s := ⟨id, fun h => by rw [phaseInv_bp0, phaseInv_bp1, h], id⟩
  of_tcntStep _ := ⟨id, id, id⟩
  of_todInc s := .setTod s fun _ => todIncValue_lt s.tod
  of_phaseIdx s := ⟨id, id, fun _ _ hp => Option.some.inj hp ▸ phaseIdxValue_lt s.tod⟩
  of_btnSample _ := ⟨id, id, id⟩
  of_clearTransients _ := ⟨id, id, fun _ _ hp => nomatch hp⟩
  of_reset s :=
    ⟨fun _ => (by decide : (0#18).toNat < dayLen), fun _ => (resetDone_par s).trans (resetDone_bp1 s).symm,
      fun _ _ hp => nomatch hp⟩

/-- TCNT, both backplanes and the number of button queries as before. -/
structure KeepsCadence (s t : State) : Prop where
  tcnt : t.tcnt = s.tcnt
  bp0 : t.bp0 = s.bp0
  bp1 : t.bp1 = s.bp1
  queries : t.history.count .evBtn = s.history.count .evBtn

theorem KeepsCadence.setTod (s : State) (v : BitVec 18) : KeepsCadence s (s.setTod v) := ⟨rfl, rfl, rfl, rfl⟩

theorem keepsCadence_holds : HoldsAfterButtons KeepsCadence where
  refl _ := ⟨rfl, rfl, rfl, rfl⟩
  trans h k := ⟨k.tcnt.trans h.tcnt, k.bp0.trans h.bp0, k.bp1.trans h.bp1, k.queries.trans h.queries⟩
  of_adjMin s := .setTod s _
  of_adjHour s := .setTod s _
  of_setRsel _ _ := ⟨rfl, rfl, rfl, rfl⟩
  of_endQuery _ _ hev := ⟨rfl, rfl, rfl, by simp [hev]⟩
  of_setKelv _ _ := ⟨rfl, rfl, rfl, rfl⟩
  of_drive s ops := ⟨rfl, s.drive_bp0 ops, s.drive_bp1 ops, rfl⟩

/-! ### Soundness over the micro-operations and the harness -/

/-- Soundness does not speak of what the harness and the environment's bookkeeping write. -/
theorem Sound.withHarness {s : State} (h : Sound s) (q : List EnvItem) (p : Ports) (d : Nat) (l : Bool) :
    Sound { s with queue := q, ports := p, draws := d, launched := l } :=
  ⟨h.tod_lt, h.bp_eq, h.pidx_lt, h.rom_wf⟩

theorem Sound.exec {i : Instr} {s t : State} (hs : Sound s) (h : exec i s = .next t) : Sound t := by
  have hrange := keepsRanges_holds.of_exec h
  have hrom := (keepsParameters_holds.of_exec h).rom
  exact ⟨hrange.tod hs.tod_lt, hrange.bp hs.bp_eq, hrange.pidx hs.pidx_lt, hrom ▸ hs.rom_wf⟩

theorem sound_reset : Sound State.reset :=
  ⟨(by decide : (0#18).toNat < dayLen), by decide, fun _ hp => (nomatch hp), romWf_nil⟩

/-! ### The cadence of the TICKs -/

/-- A boundary queries the buttons once. -/
theorem KeepsCadence.boundary (s : State) :
    KeepsCadence { s with history := s.history ++ [.evBtn] } (rendered s.boundaryRenderer s.rendererSelected) := by
  have hsampled : KeepsCadence { s with history := s.history ++ [.evBtn] } s.buttonsSampled := ⟨rfl, rfl, rfl, rfl⟩
  exact keepsCadence_holds.trans hsampled (keepsCadence_holds.of_boundary s)

/-- After its first two micro-operations a TICK leaves the cadence alone, but for the query of a boundary. -/
theorem KeepsCadence.ticked (s : State) :
    KeepsCadence
      { s.tickBegun with history := s.history ++ if s.tcnt.toNat = 31 then [.evBtn] else [] } s.ticked := by
  rw [State.ticked, tcntWraps_eq]
  by_cases h : s.tcnt.toNat = 31
  · simp only [h, decide_true, if_true]
    exact keepsCadence_holds.trans (KeepsCadence.boundary _) ⟨rfl, rfl, rfl, rfl⟩
  · simp only [h, decide_false, if_false, List.append_nil]
    exact ⟨rfl, rfl, rfl, rfl⟩

theorem ticked_tcnt (s : State) : s.ticked.tcnt = tcntNext s.tcnt := (KeepsCadence.ticked s).tcnt

theorem ticked_par (s : State) : s.ticked.par = !s.par :=
  (KeepsCadence.ticked s).bp0.trans (phaseInv_bp0 s)

theorem ticked_bp1 (s : State) : s.ticked.bp1 = !s.bp1 :=
  (KeepsCadence.ticked s).bp1.trans (phaseInv_bp1 s)

theorem ticked_queries (s : State) :
    s.ticked.history.count .evBtn = s.history.count .evBtn + if s.tcnt.toNat = 31 then 1 else 0 := by
  rw [(KeepsCadence.ticked s).queries]
  split <;> simp

/-- The low bit of TCNT flips at every count, and at the wrap, because 32 is even. -/
theorem tcntNext_parity (v : BitVec 5) : (tcntNext v).getLsbD 0 = !v.getLsbD 0 := by
  have hv := v.isLt
  simp only [BitVec.getLsbD, tcntNext_toNat, Nat.testBit_zero, ← decide_not, decide_eq_decide]
  split <;> omega

theorem not_xor_odd (b : Bool) (n : Nat) :
    (!(b ^^ decide (n % 2 = 1))) = (b ^^ decide ((n + 1) % 2 = 1)) := by
  rcases Nat.mod_two_eq_zero_or_one n with h | h <;> simp [Nat.add_mod, h]

theorem iterate_ticked_par (n : Nat) (s : State) : (State.ticked^[n] s).par = (s.par ^^ decide (n % 2 = 1)) := by
  induction n with
  | zero => simp
  | succ n ih =>
    rw [Function.iterate_succ_apply', ticked_par, ih, not_xor_odd]

theorem iterate_ticked_bp1 (n : Nat) (s : State) : (State.ticked^[n] s).bp1 = (s.bp1 ^^ decide (n % 2 = 1)) := by
  induction n with
  | zero => simp
  | succ n ih =>
    rw [Function.iterate_succ_apply', ticked_bp1, ih, not_xor_odd]

theorem iterate_ticked_tcnt (n : Nat) (s : State) :
    (State.ticked^[n] s).tcnt.toNat = (s.tcnt.toNat + n) % 32 := by
  induction n with
  | zero => exact (Nat.mod_eq_of_lt s.tcnt.isLt).symm
  | succ n ih =>
    rw [Function.iterate_succ_apply', ticked_tcnt, tcntNext_toNat, ih]
    split <;> omega

theorem iterate_ticked_queries (n : Nat) (s : State) :
    (State.ticked^[n] s).history.count .evBtn = s.history.count .evBtn + (s.tcnt.toNat + n) / 32 := by
  induction n with
  | zero => simp [Nat.div_eq_of_lt s.tcnt.isLt]
  | succ n ih =>
    rw [Function.iterate_succ_apply', ticked_queries, ih, iterate_ticked_tcnt]
    split <;> omega

theorem iterate_ticked_tod_lt (n : Nat) {s : State} (h : s.tod.toNat < dayLen) :
    (State.ticked^[n] s).tod.toNat < dayLen := by
  induction n with
  | zero => exact h
  | succ n ih =>
    rw [Function.iterate_succ_apply']
    exact (keepsRanges_holds.of_ticked _).tod ih

/-! ### The hardware's own steps -/

theorem Driven.ticked {s : State} (h : Driven s) : Driven s.ticked where
  sound := h.sound.exec (exec_tick s)
  settled := settled_ticked s
  par_eq := by rw [ticked_par, ticked_tcnt, tcntNext_parity, h.par_eq]

theorem Driven.resetDone {s : State} (h : Driven s) : Driven s.resetDone where
  sound := h.sound.exec (exec_reset s)
  settled := settled_resetDone s
  par_eq := (resetDone_par s).trans (by decide : false = (0#5).getLsbD 0)

theorem Driven.withDraws {s : State} (h : Driven s) (d : Nat) (l : Bool) :
    Driven { s with draws := d, launched := l } where
  sound := h.sound.withHarness s.queue s.ports d l
  settled := ⟨h.settled.bnd, h.settled.pidx, h.settled.bm, h.settled.bh, h.settled.rsel, h.settled.kelv⟩
  par_eq := h.par_eq

theorem driven_reset : Driven State.reset := ⟨sound_reset, ⟨rfl, rfl, rfl, rfl, rfl, rfl⟩, by decide⟩

theorem fetch_of_queue_nil {s : State} (h : s.queue = []) :
    fetch s =
      (strobeWord (Config.resetStrobe s.draws) (Config.tickStrobe s.draws), { s with draws := s.draws + 1 }) := by
  simp [fetch, h, nextItem]

theorem runWord_reset (s : State) : runWord (encode .reset) s = .next s.markLaunched.resetDone := rfl

theorem runWord_tick (s : State) : runWord (encode .tick) s = .next s.markLaunched.ticked := exec_tick _

/-- What a step can do with nothing from the harness: count the query of the strobes, and then at most a RESET or a TICK
(60_exceptions.md R263, R264). -/
theorem step_of_queue_nil {s t : State} (hq : s.queue = []) (h : step s = .next t) :
    t = { s with draws := s.draws + 1 } ∨
      t = { s with draws := s.draws + 1, launched := true }.resetDone ∨
      t = { s with draws := s.draws + 1, launched := true }.ticked := by
  have hl : launchRefusal s = .none := launchRefusal_eq_none.mpr (step_eq_next h).1
  simp only [step, hl, fetch_of_queue_nil hq] at h
  cases hr : Config.resetStrobe s.draws
  · cases ht : Config.tickStrobe s.draws
    · simp only [hr, ht, strobeWord] at h
      cases h
      exact .inl rfl
    · simp only [hr, ht, strobeWord] at h
      exact .inr (.inr (Host.Outcome.next.inj ((runWord_tick _).symm.trans h)).symm)
  · simp only [hr, strobeWord] at h
    exact .inr (.inl (Host.Outcome.next.inj ((runWord_reset _).symm.trans h)).symm)

/-! ### The launch check -/

theorem step_of_launchRefusal {s : State} {why : Refusal} (h : launchRefusal s = .some why) :
    step s = .refused why := by
  simp only [step, h]

theorem launchRefusal_of_tod_ge {s : State} (hl : s.launched = false) (ht : dayLen ≤ s.tod.toNat) :
    launchRefusal s = .some .launchOutOfRange := by
  simp [launchRefusal, hl, ht]

theorem latchReachable_iff {s : State} : latchReachable s = true ↔ s.bp0 = s.bp1 ∧ s.par = s.tcnt.getLsbD 0 := by
  simp [latchReachable]

theorem launchRefusal_of_unreachable {s : State} (hl : s.launched = false) (ht : s.tod.toNat < dayLen)
    (hr : ¬ (s.bp0 = s.bp1 ∧ s.par = s.tcnt.getLsbD 0)) : launchRefusal s = .some .launchUnreachable := by
  have hunreachable : latchReachable s ≠ true := mt latchReachable_iff.mp hr
  simp [launchRefusal, hl, Nat.not_le.mpr ht, hunreachable]

/-! ### SEGWR -/

theorem segwrReserved_eq_none {slot : BitVec 2} {g : BitVec 4} {dp : Bool} (hg : g.toNat < 15)
    (hdp : dp = true → slot.toNat = 1) : segwrReserved slot g dp = .none := by
  have hg15 : g ≠ 15#4 := by
    rintro rfl
    exact absurd hg (by decide)
  have hslot : ¬ (dp = true ∧ slot ≠ 1#2) := fun ⟨hd, hne⟩ => hne (BitVec.eq_of_toNat_eq (hdp hd))
  rw [segwrReserved, if_neg hg15, if_neg hslot]

theorem exec_segwr_of_not_reserved {slot : BitVec 2} {g : BitVec 4} {dp : Bool} (s : State)
    (h : segwrReserved slot g dp = .none) :
    exec (.segwr slot g dp) s = .next (s.setLatch (latchSegwr (romRead s.rom g) slot dp s.latch)) := by
  simp only [exec, execSegwr, h]
  rfl

/-! ### The statements -/

/-- Settles O47: soundness is kept by every micro-operation, and what the harness writes does not touch it. -/
theorem stepKeepsSound : Obligations.StepKeepsSound := by
  intro s t hs h
  obtain ⟨-, q, p, d, rfl | ⟨i, hi⟩⟩ := step_eq_next h
  · exact hs.withHarness q p d s.launched
  · exact (hs.withHarness q p d true).exec hi

/-- Settles O49, by what a step can do with an empty queue. -/
theorem hardwareStepsKeepDriven : Obligations.HardwareStepsKeepDriven := by
  refine ⟨fun s t hs h => ?_, fun s t hs h => ?_, fun s t hs hq h => ?_⟩
  · rw [exec_tick] at h
    cases h
    exact hs.ticked
  · rw [exec_reset] at h
    cases h
    exact hs.resetDone
  · have hlaunched := hs.withDraws (s.draws + 1) true
    obtain rfl | rfl | rfl := step_of_queue_nil hq h
    · exact ⟨hs.withDraws (s.draws + 1) s.launched, hq⟩
    · exact ⟨hlaunched.resetDone, hq⟩
    · exact ⟨hlaunched.ticked, (keepsParameters_holds.of_ticked _).queue.trans hq⟩

/-- Settles O32, by what SEGWR does to each line; slot 1 ends below DP. -/
theorem segwrWritesItsSlot : Obligations.SegwrWritesItsSlot := by
  intro s slot g dp hg hdp
  refine ⟨_, exec_segwr_of_not_reserved s (segwrReserved_eq_none hg hdp), rfl, fun i hi => ?_⟩
  have hslot : slot = 1#2 ↔ slot.toNat = 1 := BitVec.toNat_inj.symm
  simp only [State.setLatch_latch, getLsbD_latchSegwr _ _ _ _ hi, hslot]
  by_cases hdpLine : slot.toNat = 1 ∧ i = 15
  · have hout : ¬ (8 * slot.toNat ≤ i ∧ i < 8 * slot.toNat + 7) := by omega
    rw [if_pos hdpLine, if_neg hout, if_pos hdpLine]
  · rw [if_neg hdpLine, if_neg hdpLine]

/-- Settles O46, by what holds across every micro-operation. -/
theorem stepKeepsParametersAndHistory : Obligations.StepKeepsParametersAndHistory := by
  intro s t h
  obtain ⟨-, q, p, d, rfl | ⟨i, hi⟩⟩ := step_eq_next h
  · exact ⟨rfl, rfl, fun _ => rfl, List.prefix_rfl⟩
  · have hk := keepsParameters_holds.of_exec hi
    exact ⟨hk.cfg12h, hk.rom, fun g => congrArg (romRead · g) hk.rom, hk.history⟩

/-- Settles O51, from the cadence of n TICKs at TCNT 0 and both backplanes 0. -/
theorem parityAndCadenceFromReset : Obligations.ParityAndCadenceFromReset := by
  intro s n
  have htcnt := iterate_ticked_tcnt n s.resetDone
  have hqueries := iterate_ticked_queries n s.resetDone
  have hzero : s.resetDone.tcnt.toNat = 0 := rfl
  rw [hzero, Nat.zero_add] at htcnt hqueries
  refine ⟨_, _, exec_reset s, tickRun_eq n _, ?_, ?_, htcnt, ?_, hqueries⟩
  · rw [iterate_ticked_par, resetDone_par, Bool.false_xor]
  · rw [iterate_ticked_bp1, resetDone_bp1, Bool.false_xor]
  · exact iterate_ticked_tod_lt n (by decide : (0#18).toNat < dayLen)

/-- Settles O8: the launch check stands before the fetch. -/
theorem launchOutOfRangeIsRefused : Obligations.LaunchOutOfRangeIsRefused :=
  fun _ hl ht => step_of_launchRefusal (launchRefusal_of_tod_ge hl ht)

/-- Settles O9: the launch check stands before the fetch, so no queue and no strobe is asked. -/
theorem unreachableLaunchIsRefused : Obligations.UnreachableLaunchIsRefused := by
  intro s hl ht hbreaks
  have hr : ¬ (s.bp0 = s.bp1 ∧ s.par = s.tcnt.getLsbD 0) := not_and_or.mpr hbreaks
  exact step_of_launchRefusal (launchRefusal_of_unreachable hl ht hr)

/-- Settles O12: RESET writes its own values over any state and leaves the history. -/
theorem resetValues : Obligations.ResetValues :=
  ⟨rfl, rfl, rfl, by decide, driven_reset.settled, rfl, rfl,
    fun s => ⟨s.resetDone, exec_reset s, rfl, rfl, rfl, resetDone_par s, settled_resetDone s, rfl, rfl⟩⟩

/-- Settles O23, by the three reads of SELECT in their order. -/
theorem selectRefusesUnwrittenTransient : Obligations.SelectRefusesUnwrittenTransient := by
  intro s
  refine ⟨fun hm => ?_, fun m hm hh => ?_, fun hm hh hp => ?_, fun m h hm hh hb => ?_⟩
  · simp only [exec, execSelect, selectRenderer, hm, withTransient_none]
  · simp only [exec, execSelect, selectRenderer, hm, hh, withTransient_some, withTransient_none]
  · simp only [exec, execSelect, selectRenderer, hm, hh, hp, withTransient_some, withTransient_none, Bool.or_self,
      Bool.false_eq_true, if_false]
  · have hbutton : (m || h) = true := Bool.or_eq_true_iff.mpr hb
    exact selectRenderer_eq_next.mpr ⟨m, h, hm, hh, .inl ⟨hbutton, rfl⟩⟩

/-- Settles O48, by the reset values. -/
theorem resetIsSound : Obligations.ResetIsSound := sound_reset

/-- Settles O50, by the reset values. -/
theorem resetIsDriven : Obligations.ResetIsDriven := driven_reset

end Sys2Proof.Machine

/-! PROOFS. 20_memory.md: the glyph ROM as a parameter. First what a read gives by the listing, and what a choice does to
the listing of a glyph: unlisted at its default pattern, listed at any other. -/

namespace Sys2Proof.Machine

/-! ### Reads and choices by the listing -/

section
variable {rom rom' : List Host.Cell} {g : BitVec 4} {pat : BitVec 7}

theorem romRead_of_lookup_none (h : romLookup rom g.toNat = .none) : romRead rom g = defaultGlyph g := by
  simp only [romRead, h]

theorem romRead_of_lookup_some {b : BitVec 8} (h : romLookup rom g.toNat = .some b) :
    romRead rom g = b.setWidth 7 := by
  simp only [romRead, h]

theorem romRead_congr (h : romLookup rom' g.toNat = romLookup rom g.toNat) : romRead rom' g = romRead rom g := by
  simp only [romRead, h]

theorem romBurn_of_eq_default (hg : g ≠ 15#4) (hp : pat = defaultGlyph g) :
    romBurn rom g pat = romDrop rom g.toNat := by
  rw [romBurn, if_neg hg, if_pos hp]

theorem romBurn_of_ne_default (hg : g ≠ 15#4) (hp : pat ≠ defaultGlyph g) :
    romBurn rom g pat = romPut rom g.toNat (pat.setWidth 8) := by
  rw [romBurn, if_neg hg, if_neg hp]

theorem romRead_burn_self (hrom : romWf rom = true) (hg : g ≠ 15#4) : romRead (romBurn rom g pat) g = pat := by
  by_cases hp : pat = defaultGlyph g
  · rw [romBurn_of_eq_default hg hp, romRead_of_lookup_none (romLookup_drop_self hrom _), hp]
  · rw [romBurn_of_ne_default hg hp, romRead_of_lookup_some (romLookup_put_self _ _ _)]
    exact BitVec.setWidth_setWidth_of_le pat (by decide)

/-- The frame of a choice: it needs neither the canonical form nor a named glyph. -/
theorem romRead_burn_other {h : BitVec 4} (hne : h ≠ g) : romRead (romBurn rom g pat) h = romRead rom h := by
  have hcode : h.toNat ≠ g.toNat := BitVec.toNat_ne.mp hne
  by_cases hg : g = 15#4
  · rw [romBurn, if_pos hg]
  · by_cases hp : pat = defaultGlyph g
    · rw [romBurn_of_eq_default hg hp, romRead_congr (romLookup_drop_other _ hcode)]
    · rw [romBurn_of_ne_default hg hp, romRead_congr (romLookup_put_other _ _ hcode)]

end

/-! ### The statement -/

/-- Settles O55, by what a choice does to the listing of the chosen glyph and of any other code. -/
theorem romReadAfterChoice : Obligations.RomReadAfterChoice := by
  intro rom g h pat hrom hlt
  have hg : g ≠ 15#4 := BitVec.toNat_ne.mpr (Nat.ne_of_lt hlt)
  split
  case isTrue heq =>
    subst heq
    exact romRead_burn_self hrom hg
  case isFalse hne => exact romRead_burn_other hne

end Sys2Proof.Machine

/-! PROOFS. 30_encoding.md: words and micro-operations, the step on a harness item, and the lines of a program. First the
layer the proofs use: the fields of a word as numbers, each format of the decoder, the encoder's words, and what a list of
lines assembles to. -/

namespace Sys2Proof.Machine

/-! ### The fields of a word as numbers (30_encoding.md R100 to R102) -/

section
variable (w : Word)

theorem field_toNat (k n : Nat) : (w.extractLsb' k n).toNat = w.toNat / 2 ^ k % 2 ^ n := by
  rw [BitVec.extractLsb'_toNat, Nat.shiftRight_eq_div_pow]

/-- A must-be-zero field, as a number (R110 (b)). -/
theorem field_eq_zero_iff (k n : Nat) : w.extractLsb' k n = 0#n ↔ w.toNat / 2 ^ k % 2 ^ n = 0 := by
  rw [← BitVec.toNat_inj, field_toNat, BitVec.toNat_ofNat, Nat.zero_mod]

theorem bit_toNat (k : Nat) : (w.getLsbD k).toNat = w.toNat / 2 ^ k % 2 := Nat.toNat_testBit _ _

theorem opField_toNat : (opField w).toNat = w.toNat / 4096 := by
  have hw := w.isLt
  rw [opField, field_toNat]
  omega

end

/-! ### The encoder's words -/

theorem segwrWf_iff {slot : BitVec 2} {g : BitVec 4} {dp : Bool} :
    segwrWf slot g dp = true ↔ g.toNat < 15 ∧ (dp = true → slot.toNat = 1) := by
  revert slot g dp
  decide

theorem segwrReserved_eq_none_iff {slot : BitVec 2} {g : BitVec 4} {dp : Bool} :
    segwrReserved slot g dp = .none ↔ segwrWf slot g dp = true := by
  revert slot g dp
  decide

theorem encodeSegwr_toNat (slot : BitVec 2) (g : BitVec 4) (dp : Bool) :
    (encodeSegwr slot g dp).toNat = 0xC000 + 32 * slot.toNat + 16 * dp.toNat + g.toNat := by
  revert slot g dp
  decide

theorem encodeColwr_toNat (v : Bool) : (encodeColwr v).toNat = 0xD000 + v.toNat := by
  cases v <;> rfl

theorem decode_encodeSegwr {slot : BitVec 2} {g : BitVec 4} {dp : Bool} :
    segwrWf slot g dp = true → decode (encodeSegwr slot g dp) = .ok (.segwr slot g dp) := by
  revert slot g dp
  decide

/-- Every well-formed micro-operation is what its word decodes to. -/
theorem decode_encode {i : Instr} (h : i.wf = true) : decode (encode i) = .ok i := by
  cases i with
  | segwr slot g dp => exact decode_encodeSegwr h
  | colwr v => cases v <;> rfl
  | _ => rfl

/-! ### The formats of the decoder -/

/-- What a decoder answers for w: a micro-operation only where it is well-formed and has the word w, and a refusal exactly
where w is reserved. -/
structure DecodesWord (answer : Except DecodeError Instr) (w : Word) (reserved : Prop) : Prop where
  sound : ∀ {i}, answer = .ok i → i.wf = true ∧ encode i = w
  error_iff : (∃ why, answer = .error why) ↔ reserved

section
variable {w : Word} {reserved : Prop}

theorem DecodesWord.of_ok {i : Instr} (hr : ¬ reserved) (hwf : i.wf = true) (hword : (encode i).toNat = w.toNat) :
    DecodesWord (.ok i) w reserved where
  sound h := by
    cases h
    exact ⟨hwf, BitVec.eq_of_toNat_eq hword⟩
  error_iff := iff_of_false (fun ⟨_, h⟩ => nomatch h) hr

theorem DecodesWord.of_error {why : DecodeError} (hr : reserved) : DecodesWord (.error why) w reserved where
  sound h := nomatch h
  error_iff := iff_of_true ⟨why, rfl⟩ hr

/-- Format N: a row's word has nothing but the opcode. -/
theorem decodeN_decodes {i : Instr} (hwf : i.wf = true) (hword : (encode i).toNat = 4096 * (w.toNat / 4096)) :
    DecodesWord (decodeN w i) w (w.toNat % 4096 ≠ 0) := by
  simp only [decodeN, field_eq_zero_iff]
  split
  case isTrue h => exact .of_ok (by omega) hwf (by omega)
  case isFalse h => exact .of_error (by omega)

theorem decodeR_decodes (hop : w.toNat / 4096 = 11) :
    DecodesWord (decodeR w) w (w.toNat % 4096 / 4 ≠ 0 ∨ w.toNat = 0xB000) := by
  simp only [decodeR, field_eq_zero_iff, field_toNat]
  split
  case isTrue h =>
    split
    case h_1 h1 => exact .of_ok (by omega) rfl (show 0xB001 = w.toNat by omega)
    case h_2 h2 => exact .of_ok (by omega) rfl (show 0xB002 = w.toNat by omega)
    case h_3 h3 => exact .of_ok (by omega) rfl (show 0xB003 = w.toNat by omega)
    case h_4 =>
      refine .of_error ?_
      simp only [imp_false] at *
      omega
  case isFalse h => exact .of_error (by omega)

theorem segwrWf_fields_iff :
    segwrWf (w.extractLsb' 5 2) (w.extractLsb' 0 4) (w.getLsbD 4) = true ↔
      w.toNat % 16 ≠ 15 ∧ (w.toNat / 16 % 2 = 1 → w.toNat / 32 % 4 = 1) := by
  rw [segwrWf_iff, ← Bool.toNat_eq_one, bit_toNat, field_toNat, field_toNat]
  omega

theorem encodeSegwr_fields_toNat :
    (encodeSegwr (w.extractLsb' 5 2) (w.extractLsb' 0 4) (w.getLsbD 4)).toNat = 0xC000 + w.toNat % 128 := by
  rw [encodeSegwr_toNat, bit_toNat, field_toNat, field_toNat]
  omega

theorem decodeS_decodes (hop : w.toNat / 4096 = 12) :
    DecodesWord (decodeS w) w
      (w.toNat % 4096 / 128 ≠ 0 ∨ w.toNat % 16 = 15 ∨ w.toNat / 16 % 2 = 1 ∧ w.toNat / 32 % 4 ≠ 1) := by
  simp only [decodeS, field_eq_zero_iff]
  split
  case isTrue h =>
    split
    case h_1 hnone =>
      have hwf := segwrReserved_eq_none_iff.mp hnone
      have hfields := segwrWf_fields_iff.mp hwf
      exact .of_ok (by omega) hwf (encodeSegwr_fields_toNat.trans (by omega))
    case h_2 why hsome =>
      have hne : segwrReserved (w.extractLsb' 5 2) (w.extractLsb' 0 4) (w.getLsbD 4) ≠ .none := by
        rw [hsome]
        exact Option.some_ne_none why
      rw [ne_eq, segwrReserved_eq_none_iff, segwrWf_fields_iff] at hne
      exact .of_error (by omega)
  case isFalse h => exact .of_error (by omega)

theorem decodeC_decodes (hop : w.toNat / 4096 = 13) : DecodesWord (decodeC w) w (w.toNat % 4096 / 2 ≠ 0) := by
  have hv : (w.getLsbD 0).toNat = w.toNat % 2 := by rw [bit_toNat, pow_zero, Nat.div_one]
  simp only [decodeC, field_eq_zero_iff]
  split
  case isTrue h => exact .of_ok (by omega) rfl ((encodeColwr_toNat _).trans (by omega))
  case isFalse h => exact .of_error (by omega)

end

/-- Which format decodes a word, by its major opcode (R103). -/
theorem decode_by_format (w : Word) :
    ((w.toNat / 4096 = 0 ∨ w.toNat / 4096 = 14 ∨ w.toNat / 4096 = 15) ∧ decode w = .error .reservedOp) ∨
    ((1 ≤ w.toNat / 4096 ∧ w.toNat / 4096 ≤ 10) ∧
      ∃ i, decode w = decodeN w i ∧ i.wf = true ∧ (encode i).toNat = 4096 * (w.toNat / 4096)) ∨
    (w.toNat / 4096 = 11 ∧ decode w = decodeR w) ∨
    (w.toNat / 4096 = 12 ∧ decode w = decodeS w) ∨
    (w.toNat / 4096 = 13 ∧ decode w = decodeC w) := by
  have hw := w.isLt
  unfold decode
  rw [opField_toNat]
  split
  case h_11 hop => exact .inr (.inr (.inl ⟨hop, rfl⟩))
  case h_12 hop => exact .inr (.inr (.inr (.inl ⟨hop, rfl⟩)))
  case h_13 hop => exact .inr (.inr (.inr (.inr ⟨hop, rfl⟩)))
  case h_14 =>
    refine .inl ⟨?_, rfl⟩
    simp only [imp_false] at *
    omega
  all_goals
    rename_i hop
    rw [hop]
    exact .inr (.inl ⟨by decide, _, rfl, rfl, rfl⟩)

theorem decode_eq_ok_iff {w : Word} {i : Instr} : decode w = .ok i ↔ i.wf = true ∧ encode i = w := by
  constructor
  · intro h
    obtain ⟨-, hd⟩ | ⟨-, j, hd, hwf, hword⟩ | ⟨hop, hd⟩ | ⟨hop, hd⟩ | ⟨hop, hd⟩ := decode_by_format w <;> rw [hd] at h
    · cases h
    · exact (decodeN_decodes hwf hword).sound h
    · exact (decodeR_decodes hop).sound h
    · exact (decodeS_decodes hop).sound h
    · exact (decodeC_decodes hop).sound h
  · rintro ⟨hwf, rfl⟩
    exact decode_encode hwf

theorem decode_eq_ok_iff_toNat {w : Word} {i : Instr} (h : i.wf = true) :
    decode w = .ok i ↔ w.toNat = (encode i).toNat := by
  rw [decode_eq_ok_iff, and_iff_right h, BitVec.toNat_inj, eq_comm]

/-! ### A step on a harness item (30_encoding.md R111, R113) -/

theorem step_of_word {s : State} {w : Word} {rest : List EnvItem} (hq : s.queue = .word w :: rest)
    (hl : Launchable s) : step s = runWord w { s with queue := rest } := by
  simp only [step, launchRefusal_eq_none.mpr hl, fetch_word s w rest hq]

theorem fetch_of_set {s : State} {x : PortSetting} {rest : List EnvItem} (hq : s.queue = .set x :: rest) :
    fetch s = fetch { s with queue := rest, ports := s.ports.apply x } := by
  simp only [fetch, hq, nextItem]

/-- The launch check reads neither the queue nor the ports. -/
theorem launchRefusal_withHarness (s : State) (q : List EnvItem) (p : Ports) :
    launchRefusal { s with queue := q, ports := p } = launchRefusal s := rfl

theorem step_of_set {s : State} {x : PortSetting} {rest : List EnvItem} (hq : s.queue = .set x :: rest) :
    step s = step { s with queue := rest, ports := s.ports.apply x } := by
  simp only [step, fetch_of_set hq, launchRefusal_withHarness]

/-! ### The words of a line (30_encoding.md R112) -/

/-- No glyph operand has the reserved code 15 (20_memory.md R71). -/
theorem glyphCode_lt {glyph : AsmGlyph} {g : BitVec 4} (h : glyph.code = .some g) : g.toNat < 15 := by
  cases glyph with
  | number n =>
    obtain ⟨hn, hg⟩ := Option.ite_none_right_eq_some.mp h
    cases hg
    rw [BitVec.toNat_ofNat]
    omega
  | digit n =>
    cases h
    rw [digit, BitVec.toNat_ofNat]
    omega
  | _ =>
    cases h
    decide

theorem asmBit_of_le {n : Nat} (h : n ≤ 1) : ∃ b : Bool, asmBit n = .some b ∧ b.toNat = n := by
  match n, h with
  | 0, _ => exact ⟨false, rfl, rfl⟩
  | 1, _ => exact ⟨true, rfl, rfl⟩

theorem asmBit_of_gt {n : Nat} (h : 1 < n) : asmBit n = .none := by
  match n, h with
  | n + 2, _ => rfl

theorem asmSegwr_of_code_none {slot dp : Nat} {glyph : AsmGlyph} (h : glyph.code = .none) :
    asmSegwr slot glyph dp = .none := by
  simp only [asmSegwr, h]

/-- SEGWR's operands form a word exactly where R105 allows them. -/
theorem asmSegwr_of_code_some {slot dp : Nat} {glyph : AsmGlyph} {g : BitVec 4} (h : glyph.code = .some g) :
    asmSegwr slot glyph dp =
      if slot < 4 ∧ dp ≤ 1 ∧ (dp = 1 → slot = 1) then
        .some [.word (BitVec.ofNat 16 (0xC000 + 32 * slot + 16 * dp + g.toNat))]
      else .none := by
  have hg := glyphCode_lt h
  by_cases hdp : dp ≤ 1
  · obtain ⟨b, hb, rfl⟩ := asmBit_of_le hdp
    have hwf : slot < 4 ∧ segwrWf (BitVec.ofNat 2 slot) g b = true ↔
        slot < 4 ∧ b.toNat ≤ 1 ∧ (b.toNat = 1 → slot = 1) := by
      rw [segwrWf_iff, ← Bool.toNat_eq_one, BitVec.toNat_ofNat]
      omega
    simp only [asmSegwr, h, hb, hwf]
    split
    case isTrue hok =>
      have hword : encodeSegwr (BitVec.ofNat 2 slot) g b =
          BitVec.ofNat 16 (0xC000 + 32 * slot + 16 * b.toNat + g.toNat) := by
        apply BitVec.eq_of_toNat_eq
        rw [encodeSegwr_toNat, BitVec.toNat_ofNat, BitVec.toNat_ofNat]
        omega
      rw [hword]
    case isFalse => rfl
  · have hnot : ¬ (slot < 4 ∧ dp ≤ 1 ∧ (dp = 1 → slot = 1)) := fun ⟨_, hle, _⟩ => hdp hle
    simp only [asmSegwr, h, asmBit_of_gt (Nat.lt_of_not_le hdp), if_neg hnot]

theorem assemble_colwr (v : Nat) :
    assemble (.colwr v) = if v ≤ 1 then .some [.word (BitVec.ofNat 16 (0xD000 + v))] else .none := by
  match v with
  | 0 => rfl
  | 1 => rfl
  | n + 2 => rfl

theorem hasWord_iff_yieldsWord {l : AsmLine} {items : List EnvItem} (h : assemble l = .some items) :
    hasWord items = true ↔ YieldsWord l := by
  have hany : hasWord items = true ↔ ∃ w, EnvItem.word w ∈ items := by
    simp only [hasWord, List.any_eq_true]
    constructor
    · rintro ⟨x, hx, hw⟩
      cases x with
      | word w => exact ⟨w, hx⟩
      | set p => cases hw
    · rintro ⟨w, hw⟩
      exact ⟨_, hw, rfl⟩
  rw [hany, YieldsWord]
  constructor
  · rintro ⟨w, hw⟩
    exact ⟨items, w, h, hw⟩
  · rintro ⟨items', w, h', hw⟩
    cases h.symm.trans h'
    exact ⟨w, hw⟩

/-! ### The start registers of a list of lines (30_encoding.md R113; log 16) -/

/-- The last value that lines give a register, else the value d it has before them. -/
def lastSettingFrom (d : Nat) (f : AsmLine → Option Nat) (lines : List AsmLine) : Nat :=
  (lines.filterMap f).getLast?.getD d

theorem lastSettingFrom_cons (d : Nat) (f : AsmLine → Option Nat) (l : AsmLine) (rest : List AsmLine) :
    lastSettingFrom d f (l :: rest) = lastSettingFrom ((f l).getD d) f rest := by
  cases h : f l with
  | none => simp [lastSettingFrom, h]
  | some n => simp [lastSettingFrom, h, List.getLast?_cons]

/-- The registers after lines that begin with the registers r. -/
def StartRegs.after (r : StartRegs) (lines : List AsmLine) : StartRegs :=
  ⟨lastSettingFrom r.tcnt tcntSetting lines, lastSettingFrom r.tod todSetting lines,
    lastSettingFrom r.latch latchSetting lines⟩

theorem StartRegs.after_cons (r : StartRegs) (l : AsmLine) (rest : List AsmLine) :
    r.after (l :: rest) = (r.after [l]).after rest := by
  simp only [StartRegs.after, lastSettingFrom_cons]
  rfl

/-- A line is read where it is no `.state`, or where no word has come; then the registers are those after that line. -/
theorem asmState_eq_some {started : Bool} {r r' : StartRegs} {l : AsmLine} :
    asmState started r l = .some r' ↔ (∀ p, l = .state p → started = false) ∧ r' = r.after [l] := by
  cases l with
  | state p =>
    have hafter : r.after [.state p] = r.apply p := by cases p <;> rfl
    cases started <;> simp [asmState, hafter, eq_comm]
  | _ => exact ⟨fun h => ⟨fun _ hp => (nomatch hp), (Option.some.inj h).symm⟩, fun h => congrArg some h.2.symm⟩

/-- `.state` lines stand before the first word, where `started` says whether one has come before these lines (R113). -/
def StateLinesAllowed (started : Bool) (lines : List AsmLine) : Prop :=
  ∀ pre p post, lines = pre ++ .state p :: post → started = false ∧ ∀ l ∈ pre, ¬ YieldsWord l

theorem stateLinesAllowed_cons {started : Bool} {l : AsmLine} {rest : List AsmLine} {items : List EnvItem}
    (h : assemble l = .some items) :
    StateLinesAllowed started (l :: rest) ↔
      (∀ p, l = .state p → started = false) ∧ StateLinesAllowed (started || hasWord items) rest := by
  have hword : (started || hasWord items) = false ↔ started = false ∧ ¬ YieldsWord l := by
    rw [Bool.or_eq_false_iff, ← hasWord_iff_yieldsWord h, Bool.not_eq_true]
  constructor
  · intro hall
    refine ⟨fun p hp => (hall [] p rest (by rw [hp]; rfl)).1, fun pre p post hrest => ?_⟩
    obtain ⟨hstart, hpre⟩ := hall (l :: pre) p post (by rw [hrest]; rfl)
    obtain ⟨hl, hpre⟩ := List.forall_mem_cons.mp hpre
    exact ⟨hword.mpr ⟨hstart, hl⟩, hpre⟩
  · rintro ⟨hfirst, hrest⟩ pre p post hlines
    cases pre with
    | nil =>
      obtain ⟨hl, -⟩ := List.cons.inj hlines
      exact ⟨hfirst p hl, fun _ hm => nomatch hm⟩
    | cons l' pre =>
      obtain ⟨rfl, hpost⟩ := List.cons.inj hlines
      obtain ⟨hstart, hpre⟩ := hrest pre p post hpost
      obtain ⟨hstart, hl⟩ := hword.mp hstart
      exact ⟨hstart, List.forall_mem_cons.mpr ⟨hl, hpre⟩⟩

/-! ### What a list of lines assembles to -/

theorem assembleFrom_cons_eq_some {started : Bool} {r r' : StartRegs} {l : AsmLine} {rest : List AsmLine}
    {items : List EnvItem} :
    assembleFrom started r (l :: rest) = .some (r', items) ↔
      ∃ r1 a b, asmState started r l = .some r1 ∧ assemble l = .some a ∧
        assembleFrom (started || hasWord a) r1 rest = .some (r', b) ∧ items = a ++ b := by
  rw [assembleFrom]
  cases hs : asmState started r l with
  | none => simp
  | some r1 =>
    cases ha : assemble l with
    | none => simp
    | some a => simp [eq_comm]

/-- Lines assemble exactly when each stands for items and their `.state` lines are allowed; the registers are those after
the lines, and the items those of the lines in order. -/
theorem assembleFrom_eq_some {started : Bool} {r r' : StartRegs} {lines : List AsmLine} {items : List EnvItem} :
    assembleFrom started r lines = .some (r', items) ↔
      StateLinesAllowed started lines ∧ r' = r.after lines ∧
        ∃ parts, List.Forall₂ (fun l items => assemble l = .some items) lines parts ∧ items = parts.flatten := by
  induction lines generalizing started r items with
  | nil =>
    have hallowed : StateLinesAllowed started [] := fun pre _ _ h => by simp at h
    have hafter : r.after [] = r := rfl
    simp [assembleFrom, hallowed, hafter, eq_comm]
  | cons l rest ih =>
    rw [assembleFrom_cons_eq_some, StartRegs.after_cons]
    constructor
    · rintro ⟨r1, a, b, hstate, ha, hrest, rfl⟩
      obtain ⟨hfirst, rfl⟩ := asmState_eq_some.mp hstate
      obtain ⟨hallowed, hregs, parts, hparts, rfl⟩ := ih.mp hrest
      exact ⟨(stateLinesAllowed_cons ha).mpr ⟨hfirst, hallowed⟩, hregs, a :: parts, .cons ha hparts, rfl⟩
    · rintro ⟨hallowed, hregs, _, hparts, rfl⟩
      obtain ⟨a, parts, ha, hrest, rfl⟩ := List.forall₂_cons_left_iff.mp hparts
      obtain ⟨hfirst, hallowed⟩ := (stateLinesAllowed_cons ha).mp hallowed
      exact ⟨_, a, _, asmState_eq_some.mpr ⟨hfirst, rfl⟩, ha, ih.mpr ⟨hallowed, hregs, parts, hrest, rfl⟩, rfl⟩

theorem startRegs_fits_iff {r : StartRegs} :
    r.fits = true ↔ r.tcnt < 32 ∧ r.tod < 172800 ∧ r.latch < 2 ^ 32 := by
  simp only [StartRegs.fits, Bool.and_eq_true, decide_eq_true_eq, and_assoc]
  rfl

theorem launchProgram_eq_some {cfg : Bool} {lines : List AsmLine} {s : State} :
    launchProgram cfg lines = .some s ↔
      ∃ r items, assembleFrom false .initial lines = .some (r, items) ∧ r.fits = true ∧ Launchable s ∧
        s = .launch cfg (BitVec.ofNat 5 r.tcnt) (BitVec.ofNat 18 r.tod) (BitVec.ofNat 32 r.latch) items := by
  rw [launchProgram]
  cases h : assembleFrom false .initial lines with
  | none => simp
  | some x =>
    obtain ⟨r, items⟩ := x
    simp only [Bool.and_eq_true, Option.isNone_iff_eq_none, launchRefusal_eq_none, Option.ite_none_right_eq_some,
      Option.some.injEq, Prod.mk.injEq]
    constructor
    · rintro ⟨⟨hfits, hl⟩, rfl⟩
      exact ⟨r, items, ⟨rfl, rfl⟩, hfits, hl, rfl⟩
    · rintro ⟨_, _, ⟨rfl, rfl⟩, hfits, hl, rfl⟩
      exact ⟨⟨hfits, hl⟩, rfl⟩

/-! ### The statements -/

/-- Settles O1, by the round trip of each micro-operation and the soundness of each format. -/
theorem decodeInvertsEncode : Obligations.DecodeInvertsEncode := fun _ _ => decode_eq_ok_iff

/-- Settles O2, by what each format refuses. -/
theorem reservedWordsAreRefused : Obligations.ReservedWordsAreRefused := by
  intro w
  obtain ⟨hop, hd⟩ | ⟨hop, j, hd, hwf, hword⟩ | ⟨hop, hd⟩ | ⟨hop, hd⟩ | ⟨hop, hd⟩ := decode_by_format w <;> rw [hd]
  · exact iff_of_true ⟨_, rfl⟩ (.inl hop)
  · rw [(decodeN_decodes hwf hword).error_iff]
    omega
  · rw [(decodeR_decodes hop).error_iff]
    omega
  · rw [(decodeS_decodes hop).error_iff]
    omega
  · rw [(decodeC_decodes hop).error_iff]
    omega

/-- Settles O3, from O1 and the encoder's words. -/
theorem opcodeMap : Obligations.OpcodeMap := by
  intro w
  refine ⟨decode_eq_ok_iff_toNat rfl, decode_eq_ok_iff_toNat rfl, decode_eq_ok_iff_toNat rfl, decode_eq_ok_iff_toNat rfl,
    decode_eq_ok_iff_toNat rfl, decode_eq_ok_iff_toNat rfl, decode_eq_ok_iff_toNat rfl, decode_eq_ok_iff_toNat rfl,
    decode_eq_ok_iff_toNat rfl, decode_eq_ok_iff_toNat rfl, decode_eq_ok_iff_toNat rfl, decode_eq_ok_iff_toNat rfl,
    decode_eq_ok_iff_toNat rfl, fun slot g dp => ?_, fun v => ?_⟩
  · rw [decode_eq_ok_iff, Instr.wf, segwrWf_iff, and_assoc, ← BitVec.toNat_inj, encode, encodeSegwr_toNat,
      eq_comm (b := w.toNat)]
  · rw [decode_eq_ok_iff_toNat rfl, encode, encodeColwr_toNat]

/-- Settles O57, by what the lines assemble to from the reset registers. -/
theorem programLaunchesFromItsStateLines : Obligations.ProgramLaunchesFromItsStateLines := by
  intro cfg lines s
  rw [launchProgram_eq_some]
  constructor
  · rintro ⟨r, items, hasm, hfits, hl, hs⟩
    obtain ⟨hallowed, rfl, parts, hparts, rfl⟩ := assembleFrom_eq_some.mp hasm
    obtain ⟨htcnt, htod, hlatch⟩ := startRegs_fits_iff.mp hfits
    exact ⟨parts, hparts, fun pre p post h => (hallowed pre p post h).2, htcnt, htod, hlatch, hl, hs⟩
  · rintro ⟨parts, hparts, hfirst, htcnt, htod, hlatch, hl, hs⟩
    have hallowed : StateLinesAllowed false lines := fun pre p post h => ⟨rfl, hfirst pre p post h⟩
    exact ⟨StartRegs.initial.after lines, parts.flatten, assembleFrom_eq_some.mpr ⟨hallowed, rfl, parts, hparts, rfl⟩,
      startRegs_fits_iff.mpr ⟨htcnt, htod, hlatch⟩, hl, hs⟩

/-- Settles O58: a program that launches has no word before a `.state` (O57). -/
theorem stateLineAfterAWordIsRefused : Obligations.StateLineAfterAWordIsRefused := by
  rintro cfg pre post p ⟨l, hl, hword⟩
  refine Option.eq_none_iff_forall_ne_some.mpr fun s hs => ?_
  obtain ⟨_, -, hfirst, -⟩ := (programLaunchesFromItsStateLines cfg _ s).mp hs
  exact hfirst pre p post rfl l hl hword

/-- Settles O4: each is the word of a well-formed micro-operation. -/
theorem exampleWordsDecode : Obligations.ExampleWordsDecode :=
  ⟨decode_encode (i := .segwr 0#2 10#4 false) rfl, decode_encode (i := .segwr 1#2 3#4 true) rfl,
    decode_encode (i := .segwr 2#2 3#4 false) rfl, decode_encode (i := .segwr 3#2 14#4 false) rfl,
    decode_encode (i := .tick) rfl, decode_encode (i := .reset) rfl, decode_encode (i := .rendTemp) rfl,
    decode_encode (i := .colwr true) rfl⟩

/-- Settles O5: the code with 0xB000 is the renderer's word, and code 0 has none. -/
theorem rendererFieldIsTheRselCode : Obligations.RendererFieldIsTheRselCode := by
  intro r
  cases r with
  | none => rfl
  | time => exact decode_encode (i := .rendTime) rfl
  | volt => exact decode_encode (i := .rendVolt) rfl
  | temp => exact decode_encode (i := .rendTemp) rfl

/-- Settles O6: the launch check passes and the fetch takes the word. -/
theorem stepRunsDecodedWord : Obligations.StepRunsDecodedWord := by
  intro s w rest i hq hd hl
  rw [step_of_word hq hl, runWord, hd]
  rfl

/-- Settles O7: the launch check passes, the fetch takes the word, and the decoder refuses it. -/
theorem stepRefusesReservedWord : Obligations.StepRefusesReservedWord := by
  intro s w rest why hq hd hl
  rw [step_of_word hq hl, runWord, hd]

/-- Settles O11: the fetch applies the `.set` on its way, and a Sample asks its own port alone. -/
theorem setDirectiveFixesItsPort : Obligations.SetDirectiveFixesItsPort := by
  refine ⟨fun s x rest hq => step_of_set hq, fun s x => ?_⟩
  cases x <;> exact ⟨rfl, rfl, rfl, rfl, rfl, rfl⟩

/-- Settles O59, by the word that SEGWR's and COLWR's operands form; the other lines' items are written out. -/
theorem linesStandForTheirWords : Obligations.LinesStandForTheirWords := by
  refine ⟨⟨rfl, rfl, rfl, rfl, rfl, rfl, rfl, rfl, rfl, rfl, rfl, rfl, rfl, fun _ _ _ => rfl, fun _ => rfl⟩,
    ⟨fun _ => rfl, fun _ => rfl, rfl, rfl, rfl, rfl, rfl⟩, fun slot glyph dp => ⟨?_, rfl, rfl⟩, assemble_colwr,
    fun _ => rfl, rfl, rfl, fun _ => rfl, fun _ => rfl⟩
  cases hcode : glyph.code with
  | none => exact asmSegwr_of_code_none hcode
  | some g => exact asmSegwr_of_code_some hcode

end Sys2Proof.Machine

/-! PROOFS. 40_phase_engine.md: PHASE_INV and the TICK. First what the inversion does to the lines and what a
renderer's call does to the state; then the state a TICK leaves, off the boundary and at it. -/

namespace Sys2Proof.Machine

/-! ### The inversion (40_phase_engine.md R135, R136) -/

theorem exec_phaseInv (s : State) : exec .phaseInv s = .next (phaseInv s) := rfl

theorem getLsbD_not_latch (l : BitVec 32) {i : Nat} (hi : i < 32) : (~~~l).getLsbD i = !l.getLsbD i := by
  rw [BitVec.getLsbD_not, decide_eq_true hi, Bool.true_and]

/-- A line and the backplane flip together. -/
theorem visible_not (l : BitVec 32) {i : Nat} (hi : i < 32) : visible (~~~l) i = visible l i := by
  rw [visible, visible, getLsbD_not_latch l hi, getLsbD_not_latch l (by decide : 7 < 32), Bool.not_xor_not]

theorem phaseInv_phaseInv (s : State) : phaseInv (phaseInv s) = s :=
  congrArg s.setLatch (BitVec.not_not : ~~~(~~~s.latch) = s.latch)

/-- A difference of two lines and the same difference with both inverted cancel. -/
theorem toInt_sub_add_toInt_not_sub (a b : Bool) : (a.toInt - b.toInt) + ((!a).toInt - (!b).toInt) = 0 := by
  cases a <;> cases b <;> decide

/-! ### The call of a renderer -/

/-- The events of the queries that the named renderer makes (10_state.md R52). -/
def queryEvents : RSel → List Event
  | .none => []
  | .time => []
  | .volt => [.evMeasV]
  | .temp => [.evMeasT]

/-- The state a renderer leaves, but for the transients: its writes on the latch, the events of its queries and their
count. -/
theorem rendered_clearTransients (r : RSel) (s : State) :
    (rendered r s).clearTransients =
      { s.clearTransients with
        latch := latchDrivers s.rom (issuedWrites r s) s.latch, history := s.history ++ queryEvents r,
        draws := s.draws + (queryEvents r).length } := by
  cases r with
  | none =>
    rw [queryEvents, List.append_nil]
    rfl
  | time =>
    rw [queryEvents, List.append_nil]
    rfl
  | volt => rfl
  | temp => rfl

/-- A renderer writes no transient but KELV. -/
structure KeepsChoices (s t : State) : Prop where
  bnd : t.bnd = s.bnd
  bm : t.bm = s.bm
  bh : t.bh = s.bh
  rsel : t.rsel = s.rsel

theorem rendered_keepsChoices (r : RSel) (s : State) : KeepsChoices s (rendered r s) := by
  cases r with
  | none => exact ⟨rfl, rfl, rfl, rfl⟩
  | time => exact ⟨rfl, rfl, rfl, rfl⟩
  | volt => exact ⟨rfl, rfl, rfl, rfl⟩
  | temp => exact ⟨rfl, rfl, rfl, rfl⟩

/-- The renderer of a boundary by the levels and the unit within the minute (41_scheduler.md R156, R170). -/
theorem boundaryRenderer_eq (s : State) :
    s.boundaryRenderer =
      if s.sampleBtnMin || s.sampleBtnHour then .time
      else if (s.tod.toNat + 1) % 172800 % 120 < 108 then .time
      else if (s.tod.toNat + 1) % 172800 % 120 = 108 then .volt
      else if (s.tod.toNat + 1) % 172800 % 120 = 114 then .temp
      else .none := by
  simp only [State.boundaryRenderer, chosenRenderer, scheduledRenderer, phaseIdxValue_toNat, todIncValue_toNat,
    normalBelow, voltAt, tempAt]

/-! ### The state a TICK leaves -/

theorem tickBegun_bnd (s : State) : s.tickBegun.bnd = .some (tcntWraps s.tcnt) := rfl

/-- The inversion and TCNT_STEP touch nothing that the choice of the renderer reads. -/
theorem tickBegun_boundaryRenderer (s : State) : s.tickBegun.boundaryRenderer = s.boundaryRenderer := rfl

theorem tcntNext_of_lt {v : BitVec 5} (h : v.toNat < 31) : tcntNext v = v + 1#5 := by
  have hfits : v.toNat + (1#5).toNat < 2 ^ 5 := Nat.add_lt_add_right h 1
  apply BitVec.eq_of_toNat_eq
  rw [tcntNext_toNat, if_neg (Nat.ne_of_lt h), BitVec.toNat_add_of_lt hfits]
  rfl

theorem tcntNext_of_eq {v : BitVec 5} (h : v.toNat = 31) : tcntNext v = 0#5 := by
  apply BitVec.eq_of_toNat_eq
  rw [tcntNext_toNat, if_pos h]
  rfl

theorem Settled.clearTransients_eq {s : State} (h : Settled s) : s.clearTransients = s := by
  obtain ⟨hbnd, hpidx, hbm, hbh, hrsel, hkelv⟩ := h
  cases s
  subst hbnd hpidx hbm hbh hrsel hkelv
  rfl

/-- The last state of a TICK that still holds its transients. -/
def State.tickEnd (s : State) : State :=
  if s.tcnt.toNat = 31 then rendered s.boundaryRenderer s.tickBegun.rendererSelected else s.tickBegun

theorem ticked_eq_tickEnd (s : State) : s.ticked = s.tickEnd.clearTransients := by
  simp only [State.ticked, State.tickEnd, tcntWraps_eq, decide_eq_true_eq, tickBegun_boundaryRenderer]

/-- Off the boundary (R134). -/
theorem ticked_of_tcnt_lt {s : State} (h : s.tcnt.toNat < 31) :
    s.ticked = { s.clearTransients with latch := ~~~s.latch, tcnt := s.tcnt + 1#5 } := by
  rw [ticked_eq_tickEnd, State.tickEnd, if_neg (Nat.ne_of_lt h), ← tcntNext_of_lt h]
  rfl

/-- At the boundary (R130). -/
theorem ticked_of_tcnt_eq {s : State} (h : s.tcnt.toNat = 31) :
    s.ticked =
      { s.clearTransients with
        tcnt := 0#5, tod := adjustedTod s.sampleBtnMin s.sampleBtnHour (todIncValue s.tod),
        latch := latchDrivers s.rom (issuedWrites s.boundaryRenderer s.tickBegun.rendererSelected) (~~~s.latch),
        history := s.history ++ .evBtn :: queryEvents s.boundaryRenderer,
        draws := s.draws + 1 + (queryEvents s.boundaryRenderer).length } := by
  have hhistory : s.history ++ .evBtn :: queryEvents s.boundaryRenderer =
      s.history ++ [.evBtn] ++ queryEvents s.boundaryRenderer := List.append_cons _ _ _
  rw [ticked_eq_tickEnd, State.tickEnd, if_pos h, rendered_clearTransients, hhistory, ← tcntNext_of_eq h]
  rfl

/-- A TICK that issues no driver write only inverts (41_scheduler.md R172). -/
theorem ticked_latch_of_onlyInverts {s : State} (h : OnlyInverts s) : s.ticked.latch = ~~~s.latch := by
  by_cases hb : s.tcnt.toNat = 31
  · obtain ⟨hm, hh, hafter, hne⟩ := h hb
    have hnone : s.boundaryRenderer = .none := by
      rw [boundaryRenderer_eq, hm, hh, if_neg (by decide), if_neg (by omega), if_neg (by omega), if_neg hne]
    rw [ticked_of_tcnt_eq hb, hnone]
    rfl
  · have hlt : s.tcnt.toNat < 31 := Nat.lt_of_le_of_ne (Nat.le_of_lt_succ s.tcnt.isLt) hb
    rw [ticked_of_tcnt_lt hlt]

/-! ### The micro-operations of a TICK, one by one (40_phase_engine.md R133) -/

theorem runAll_append (xs ys : List Instr) (s : State) : runAll (xs ++ ys) s = andThen (runAll xs s) (runAll ys) := by
  induction xs generalizing s with
  | nil => rfl
  | cons i rest ih =>
    have htail : runAll (rest ++ ys) = fun t => andThen (runAll rest t) (runAll ys) := funext ih
    rw [List.cons_append, runAll, htail, runAll, andThen_assoc]

theorem runAll_singleton {i : Instr} {s t : State} (h : exec i s = .next t) : runAll [i] s = .next t := by
  rw [runAll, h]
  rfl

theorem runAll_adjustment (m h : Bool) (s : State) :
    runAll (if m then [.adjMin] else if h then [.adjHour] else []) s =
      .next (s.setTod (adjustedTod m h s.tod)) := by
  cases m
  · cases h
    · rfl
    · exact runAll_singleton rfl
  · exact runAll_singleton rfl

theorem runAll_rendererCall (r : RSel) (s : State) : runAll (rendererCall r) s = .next (rendered r s) := by
  cases r with
  | none => rfl
  | time => exact runAll_singleton rfl
  | volt => exact runAll_singleton rfl
  | temp => exact runAll_singleton rfl

/-- Up to and with SELECT, with BM and BH as the boundary samples them. -/
theorem runAll_boundaryPrefix (s : State) :
    runAll (boundaryPrefix s.sampleBtnMin s.sampleBtnHour) s.clearTransients =
      .next s.tickBegun.rendererSelected := by
  have hsampled : runAll [.phaseInv, .tcntStep, .todInc, .phaseIdx, .btnSample] s.clearTransients =
      .next s.tickBegun.buttonsSampled := rfl
  have hselect : selectRenderer s.tickBegun.buttonsAdjusted = .next s.tickBegun.rendererSelected :=
    selectRenderer_of_transients rfl rfl rfl
  rw [boundaryPrefix, runAll_append, runAll_append, hsampled, andThen_next, runAll_adjustment, andThen_next]
  exact runAll_singleton hselect

/-! ### The statements -/

/-- Settles O38, from the state a boundary TICK leaves: the renderer by the unit before the adjustment, its writes with
the adjusted TOD. -/
theorem boundaryTickEffect : Obligations.BoundaryTickEffect := by
  intro s hb
  have htod : BitVec.ofNat 18 ((s.tod.toNat + 1) % 172800) = todIncValue s.tod := by rw [todIncValue, dayLen]
  rw [exec_tick, ticked_of_tcnt_eq hb]
  simp only [htod, ← boundaryRenderer_eq]
  cases s.boundaryRenderer with
  | none => rfl
  | time => rfl
  | volt => rfl
  | temp => rfl

/-- Settles O39, with the TICK's last state that holds its transients. -/
theorem tickRefinesItsMicroOperations : Obligations.TickRefinesItsMicroOperations := by
  intro s
  refine ⟨s.tickEnd, by rw [exec_tick, ticked_eq_tickEnd], fun hoff => ?_, fun hb => ?_⟩
  · rw [State.tickEnd, if_neg hoff, tickBegun_bnd, tcntWraps_eq, decide_eq_false hoff]
    exact ⟨rfl, rfl⟩
  · rw [State.tickEnd, if_pos hb]
    have hkeep := rendered_keepsChoices s.boundaryRenderer s.tickBegun.rendererSelected
    have hbnd : s.tickBegun.bnd = .some true := by rw [tickBegun_bnd, tcntWraps_eq, decide_eq_true hb]
    refine ⟨hkeep.bnd.trans hbnd, s.sampleBtnMin, s.sampleBtnHour, s.boundaryRenderer, hkeep.bm, hkeep.bh,
      hkeep.rsel, ?_⟩
    rw [runAll_append, runAll_boundaryPrefix, andThen_next, runAll_rendererCall]

/-- Settles O36, from the state a TICK off the boundary leaves. -/
theorem nonBoundaryTick : Obligations.NonBoundaryTick := by
  refine ⟨fun s hlt => ?_, fun s hlt hs => ?_⟩
  · rw [exec_tick, ticked_of_tcnt_lt hlt]
    rfl
  · rw [exec_tick, ticked_of_tcnt_lt hlt, hs.clearTransients_eq]

/-- Settles O43: each of the two TICKs only inverts. -/
theorem twoTicksRestoreEveryLine : Obligations.TwoTicksRestoreEveryLine := by
  intro s hfirst hsecond
  have ht : s.ticked.latch = ~~~s.latch := ticked_latch_of_onlyInverts hfirst
  have hu : s.ticked.ticked.latch = ~~~s.ticked.latch := ticked_latch_of_onlyInverts (hsecond _ (exec_tick s))
  refine ⟨s.ticked, s.ticked.ticked, exec_tick s, exec_tick _, ?_, fun i hi => ?_⟩
  · rw [hu, ht, BitVec.not_not]
  · rw [ht, getLsbD_not_latch _ hi, getLsbD_not_latch _ (by decide : 7 < 32)]
    exact ⟨rfl, toInt_sub_add_toInt_not_sub _ _⟩

/-- Settles O15: each line, and the backplane with it, is inverted. -/
theorem phaseInvInvertsEveryLine : Obligations.PhaseInvInvertsEveryLine := by
  intro s
  refine ⟨phaseInv s, exec_phaseInv s, rfl, fun i hi => getLsbD_not_latch _ hi, phaseInv_bp0 s,
    fun i hi => visible_not _ hi, ?_⟩
  rw [exec_phaseInv, phaseInv_phaseInv]

/-- Settles O40, by the state a TICK leaves from any state. -/
theorem tickAlwaysCompletes : Obligations.TickAlwaysCompletes :=
  fun s => ⟨s.ticked, exec_tick s, settled_ticked s, ticked_par s⟩

end Sys2Proof.Machine

/-! PROOFS. 41_scheduler.md: the scheduler's micro-operations, the boundary TICK and the run of TICKs. First SELECT's
schedule by the unit within the minute, and TOD over one TICK and over a run in which the minutes button is released. -/

namespace Sys2Proof.Machine

/-! ### The schedule (41_scheduler.md R170, R172) -/

section
variable {p : BitVec 7}

theorem scheduledRenderer_time (h : p.toNat < 108) : scheduledRenderer p = .time := if_pos h

theorem scheduledRenderer_volt (h : p.toNat = 108) : scheduledRenderer p = .volt := by
  rw [scheduledRenderer, normalBelow, voltAt, if_neg (by omega), if_pos h]

theorem scheduledRenderer_temp (h : p.toNat = 114) : scheduledRenderer p = .temp := by
  rw [scheduledRenderer, normalBelow, voltAt, tempAt, if_neg (by omega), if_neg (by omega), if_pos h]

theorem scheduledRenderer_none (h : 108 < p.toNat) (hne : p.toNat ≠ 114) : scheduledRenderer p = .none := by
  rw [scheduledRenderer, normalBelow, voltAt, tempAt, if_neg (by omega), if_neg (by omega), if_neg hne]

end

theorem chosenRenderer_of_asserted {m h : Bool} (hb : m = true ∨ h = true) (p : BitVec 7) :
    chosenRenderer m h p = .time :=
  if_pos (Bool.or_eq_true_iff.mpr hb)

/-- With no button asserted a boundary selects by PIDX, the unit after the advance. -/
theorem boundaryRenderer_of_released {s : State} (hm : s.sampleBtnMin = false) (hh : s.sampleBtnHour = false) :
    s.boundaryRenderer = scheduledRenderer (phaseIdxValue (todIncValue s.tod)) := by
  rw [State.boundaryRenderer, hm, hh]
  rfl

/-- The latch that a boundary TICK leaves by its renderer, whose query is the TICK's second one. -/
theorem ticked_latch_of_tcnt_eq {s : State} (h : s.tcnt.toNat = 31) :
    s.ticked.latch =
      latchDrivers s.rom (issuedWrites s.boundaryRenderer { s with tod := s.ticked.tod, draws := s.draws + 1 })
        (~~~s.latch) := by
  rw [ticked_of_tcnt_eq h]
  cases s.boundaryRenderer with
  | none => rfl
  | time => rfl
  | volt => rfl
  | temp => rfl

theorem ticked_history_of_tcnt_eq {s : State} (h : s.tcnt.toNat = 31) :
    s.ticked.history = s.history ++ .evBtn :: queryEvents s.boundaryRenderer := by
  rw [ticked_of_tcnt_eq h]

/-! ### TOD over one TICK -/

theorem ticked_tod_of_tcnt_eq {s : State} (h : s.tcnt.toNat = 31) :
    s.ticked.tod = adjustedTod s.sampleBtnMin s.sampleBtnHour (todIncValue s.tod) := by
  rw [ticked_of_tcnt_eq h]

theorem ticked_tod_of_tcnt_ne {s : State} (h : s.tcnt.toNat ≠ 31) : s.ticked.tod = s.tod := by
  rw [ticked_of_tcnt_lt (by have := s.tcnt.isLt; omega)]
  rfl

/-- How far a boundary moves TOD with the hours button at the given level and the minutes button released
(41_scheduler.md R153, R167). -/
def boundaryUnits (hour : Bool) : Nat := if hour then 7201 else 1

/-- TOD after such a boundary. -/
def boundaryTod (hour : Bool) (t : Nat) : Nat := (t + boundaryUnits hour) % 172800

theorem adjustedTod_min_toNat (h : Bool) (tod : BitVec 18) :
    (adjustedTod true h (todIncValue tod)).toNat =
      (tod.toNat + 1) % 172800 / 7200 * 7200 + ((tod.toNat + 1) % 172800 % 7200 / 120 + 1) % 60 * 120 := by
  rw [← todIncValue_toNat]
  exact adjMinValue_toNat _ (todIncValue_lt tod)

theorem adjustedTod_released_toNat (h : Bool) (tod : BitVec 18) :
    (adjustedTod false h (todIncValue tod)).toNat = boundaryTod h tod.toNat := by
  cases h with
  | false => exact todIncValue_toNat tod
  | true =>
    calc (adjHourValue (todIncValue tod)).toNat = ((tod.toNat + 1) % 172800 + 7200) % 172800 := by
          rw [adjHourValue_toNat, todIncValue_toNat]
      _ = (tod.toNat + 7201) % 172800 := Nat.mod_add_mod _ _ _

/-! ### TOD over a run of TICKs -/

theorem ButtonsAtBoundaries.of_succ {m h : Bool} {n : Nat} {s : State} (hb : ButtonsAtBoundaries m h (n + 1) s) :
    ButtonsAtBoundaries m h n s :=
  fun k t hk => hb k t (Nat.lt_succ_of_lt hk)

theorem ButtonsAtBoundaries.at_last {m h : Bool} {n : Nat} {s : State} (hb : ButtonsAtBoundaries m h (n + 1) s)
    (hlast : (State.ticked^[n] s).tcnt.toNat = 31) :
    (State.ticked^[n] s).sampleBtnMin = m ∧ (State.ticked^[n] s).sampleBtnHour = h :=
  hb n _ (Nat.lt_succ_self n) (tickRun_eq n s) hlast

/-- With the minutes button released at each boundary of n TICKs, TOD moves once per boundary reached. -/
theorem iterate_ticked_tod {h : Bool} {n : Nat} {s : State} (hb : ButtonsAtBoundaries false h n s) :
    (State.ticked^[n] s).tod.toNat = (boundaryTod h)^[(s.tcnt.toNat + n) / 32] s.tod.toNat := by
  induction n with
  | zero => rw [Nat.add_zero, Nat.div_eq_of_lt s.tcnt.isLt]; rfl
  | succ n ih =>
    have htcnt := iterate_ticked_tcnt n s
    rw [Function.iterate_succ_apply']
    by_cases hlast : (State.ticked^[n] s).tcnt.toNat = 31
    · obtain ⟨hm, hh⟩ := hb.at_last hlast
      have hcount : (s.tcnt.toNat + (n + 1)) / 32 = (s.tcnt.toNat + n) / 32 + 1 := by omega
      rw [ticked_tod_of_tcnt_eq hlast, hm, hh, adjustedTod_released_toNat, ih hb.of_succ, hcount,
        Function.iterate_succ_apply']
    · have hcount : (s.tcnt.toNat + (n + 1)) / 32 = (s.tcnt.toNat + n) / 32 := by omega
      rw [ticked_tod_of_tcnt_ne hlast, ih hb.of_succ, hcount]

theorem iterate_boundaryTod_zero (h : Bool) (k : Nat) :
    (boundaryTod h)^[k] 0 = k * boundaryUnits h % 172800 := by
  induction k with
  | zero => rw [Nat.zero_mul]; rfl
  | succ k ih => rw [Function.iterate_succ_apply', ih, boundaryTod, Nat.mod_add_mod, Nat.succ_mul]

/-- RESET starts both counters at 0, so that every 32nd TICK after it is a boundary (R152). -/
theorem iterate_ticked_tod_of_reset {h : Bool} {n : Nat} {s r : State} (hr : exec .reset s = .next r)
    (hb : ButtonsAtBoundaries false h n r) :
    (State.ticked^[n] r).tod.toNat = n / 32 * boundaryUnits h % 172800 := by
  cases hr
  have htcnt : s.resetDone.tcnt.toNat = 0 := rfl
  have htod : s.resetDone.tod.toNat = 0 := rfl
  calc (State.ticked^[n] s.resetDone).tod.toNat
      = (boundaryTod h)^[(s.resetDone.tcnt.toNat + n) / 32] s.resetDone.tod.toNat := iterate_ticked_tod hb
    _ = n / 32 * boundaryUnits h % 172800 := by rw [htcnt, htod, Nat.zero_add, iterate_boundaryTod_zero]

/-! ### The statements -/

/-- Settles O16, by the wrap of TCNT at 31. -/
theorem tcntStepCountsAndWraps : Obligations.TcntStepCountsAndWraps := by
  intro s
  refine ⟨tcntStep s, rfl, rfl, fun h => ⟨?_, ?_⟩, fun h => ⟨?_, ?_⟩⟩
  · exact (tcntNext_toNat _).trans (if_pos h)
  · exact congrArg Option.some ((tcntWraps_eq _).trans (decide_eq_true h))
  · exact (tcntNext_toNat _).trans (if_neg (Nat.ne_of_lt h))
  · exact congrArg Option.some ((tcntWraps_eq _).trans (decide_eq_false (Nat.ne_of_lt h)))

/-- Settles O20: in range the sum that ADJ_MIN writes is a whole number of minutes within the same hour. -/
theorem adjMinSnapsToNextMinute : Obligations.AdjMinSnapsToNextMinute := by
  intro s hs
  refine ⟨adjMin s, rfl, rfl, adjMinValue_lt s.tod hs, ?_⟩
  rw [adjMin, State.setTod_tod, adjMinValue_toNat _ hs]
  omega

/-- Settles O21: 7200 units are one hour, and the day is a whole number of hours. -/
theorem adjHourAdvancesTheHour : Obligations.AdjHourAdvancesTheHour := by
  intro s hs
  refine ⟨adjHour s, rfl, rfl, adjHourValue_toNat s.tod, ?_⟩
  rw [adjHour, State.setTod_tod, adjHourValue_toNat]
  omega

/-- Settles O22, by the choice with a button asserted and by the schedule. -/
theorem selectChoosesByPriority : Obligations.SelectChoosesByPriority := by
  intro s m h p hm hh hp
  refine ⟨chosenRenderer m h p, selectRenderer_of_transients hm hh hp, fun hb => chosenRenderer_of_asserted hb p, ?_⟩
  rintro ⟨rfl, rfl⟩
  exact ⟨scheduledRenderer_time, scheduledRenderer_volt, scheduledRenderer_temp,
    fun ⟨hlt, hne⟩ => scheduledRenderer_none hlt hne⟩

/-- Settles O37: TOD_INC first, then the adjustment by the levels sampled. -/
theorem boundaryTickAdvancesTod : Obligations.BoundaryTickAdvancesTod := by
  intro s hb
  refine ⟨s.ticked, exec_tick s, ?_, fun hm => ?_, fun hm hh => ?_, fun hm hh => ?_⟩
  · rw [ticked_tcnt, tcntNext_toNat, if_pos hb]
  · rw [ticked_tod_of_tcnt_eq hb, hm, adjustedTod_min_toNat]
  · rw [ticked_tod_of_tcnt_eq hb, hm, hh, adjustedTod_released_toNat]
    rfl
  · rw [ticked_tod_of_tcnt_eq hb, hm, hh, adjustedTod_released_toNat]
    rfl

/-- Settles O44: the unit after the advance picks the renderer, whose events and writes the TICK leaves. -/
theorem minuteSchedule : Obligations.MinuteSchedule := by
  intro s hb hm hh
  have hunit : (phaseIdxValue (todIncValue s.tod)).toNat = (s.tod.toNat + 1) % 172800 % 120 := by
    rw [phaseIdxValue_toNat, todIncValue_toNat]
  refine ⟨s.ticked, exec_tick s, ?_⟩
  rw [ticked_history_of_tcnt_eq hb, ticked_latch_of_tcnt_eq hb, boundaryRenderer_of_released hm hh]
  simp only [← hunit]
  refine ⟨fun h => ?_, fun h => ?_, fun h => ?_, fun ⟨h, hne⟩ => ?_⟩
  · rw [scheduledRenderer_time h]
    exact ⟨rfl, rfl⟩
  · rw [scheduledRenderer_volt h]
    exact ⟨rfl, rfl⟩
  · rw [scheduledRenderer_temp h]
    exact ⟨rfl, rfl⟩
  · rw [scheduledRenderer_none h hne]
    exact ⟨rfl, rfl⟩

/-- Settles O52: any 32 TICKs reach one boundary, and n TICKs from RESET reach n div 32. -/
theorem todCountsHalfSeconds : Obligations.TodCountsHalfSeconds := by
  refine ⟨fun s hb => ⟨_, tickRun_eq 32 s, ?_⟩, fun s r n hr hb => ?_⟩
  · have hone : (s.tcnt.toNat + 32) / 32 = 1 := by have := s.tcnt.isLt; omega
    rw [iterate_ticked_tod hb, hone]
    rfl
  · refine ⟨_, tickRun_eq n r, ?_⟩
    rw [iterate_ticked_tod_of_reset hr hb, boundaryUnits, if_neg (by decide), Nat.mul_one]

/-- Settles O53: each of the n div 32 boundaries adds the unit and the hour. -/
theorem heldHoursButtonRepeats : Obligations.HeldHoursButtonRepeats :=
  fun _ r n hr hb => ⟨_, tickRun_eq n r, iterate_ticked_tod_of_reset hr hb⟩

/-- Settles O17, by the value TOD_INC writes. -/
theorem todIncWrapsAtTheDay : Obligations.TodIncWrapsAtTheDay :=
  fun s => ⟨todInc s, rfl, rfl, todIncValue_toNat s.tod⟩

/-- Settles O18, by the value PHASE_IDX writes. -/
theorem phaseIdxIsTheUnit : Obligations.PhaseIdxIsTheUnit :=
  fun s => ⟨phaseIdx s, phaseIdxValue s.tod, rfl, rfl, phaseIdxValue_toNat s.tod, phaseIdxValue_lt s.tod⟩

/-- Settles O19: one query takes both levels, each fixed at its port or else drawn. -/
theorem btnSampleReadsThePorts : Obligations.BtnSampleReadsThePorts := by
  intro s
  refine ⟨s.sampleBtnMin, s.sampleBtnHour, rfl, ?_, ?_⟩
  · rw [State.sampleBtnMin]
    cases s.ports.btnMin with
    | none => rfl
    | some v => rfl
  · rw [State.sampleBtnHour]
    cases s.ports.btnHour with
    | none => rfl
    | some v => rfl

end Sys2Proof.Machine

/-! PROOFS. 42_renderers.md: the renderers. First the picture a renderer draws and what its driver writes leave on each
line; then the picture of each renderer, and the numbers shown in it. -/

namespace Sys2Proof.Machine

/-! ### The picture a renderer draws (42_renderers.md R206, R207) -/

/-- A glyph in each of the four slots, the point of slot 1 and the colon: all that a renderer writes. A code is below
15, so no picture needs a reserved word. -/
structure Picture where
  code : Fin 4 → Fin 15
  point : Bool
  colon : Bool

/-- The glyph in a slot, as SEGWR's operand. -/
def Picture.glyph (p : Picture) (slot : Fin 4) : BitVec 4 := BitVec.ofNat 4 (p.code slot)

/-- The four SEGWR and the COLWR that draw a picture. -/
def Picture.writes (p : Picture) : List DriverOp :=
  [ .segwr 0#2 (p.glyph 0) false,
    .segwr 1#2 (p.glyph 1) p.point,
    .segwr 2#2 (p.glyph 2) false,
    .segwr 3#2 (p.glyph 3) false,
    .colwr p.colon ]

theorem Picture.glyph_toNat (p : Picture) (slot : Fin 4) : (p.glyph slot).toNat = p.code slot :=
  Nat.mod_eq_of_lt (Nat.lt_trans (p.code slot).isLt (by decide))

section
variable (p : Picture) (rom : List Host.Cell) (l : BitVec 32)

theorem Picture.wf_of_mem_writes {op : DriverOp} (h : op ∈ p.writes) : op.toInstr.wf = true := by
  have hglyph (slot : Fin 4) : (p.glyph slot).toNat < 15 := by
    rw [p.glyph_toNat]
    exact (p.code slot).isLt
  simp only [Picture.writes, List.mem_cons, List.not_mem_nil, or_false] at h
  obtain rfl | rfl | rfl | rfl | rfl := h
  · exact segwrWf_iff.mpr ⟨hglyph 0, by decide⟩
  · exact segwrWf_iff.mpr ⟨hglyph 1, fun _ => rfl⟩
  · exact segwrWf_iff.mpr ⟨hglyph 2, by decide⟩
  · exact segwrWf_iff.mpr ⟨hglyph 3, by decide⟩
  · rfl

/-- The latch with the picture drawn on it. -/
def Picture.drawn : BitVec 32 := latchDrivers rom p.writes l

/-- No line is written twice, and the backplanes, lines 7 and 31, are not written. -/
theorem Picture.getLsbD_drawn {i : Nat} (hi : i < 32) :
    (p.drawn rom l).getLsbD i =
      if i = 23 then p.colon
      else if 24 ≤ i ∧ i < 31 then (romRead rom (p.glyph 3)).getLsbD (i - 24)
      else if 16 ≤ i ∧ i < 23 then (romRead rom (p.glyph 2)).getLsbD (i - 16)
      else if i = 15 then p.point
      else if 8 ≤ i ∧ i < 15 then (romRead rom (p.glyph 1)).getLsbD (i - 8)
      else if i < 7 then (romRead rom (p.glyph 0)).getLsbD i
      else l.getLsbD i := by
  simp [Picture.drawn, Picture.writes, latchDrivers, latchDriver, getLsbD_latchColwr _ _ hi,
    getLsbD_latchSegwr _ _ _ _ hi]

theorem Picture.getLsbD_drawn_slot (slot : Fin 4) {k : Nat} (hk : k < 7) :
    (p.drawn rom l).getLsbD (8 * slot + k) = (romRead rom (p.glyph slot)).getLsbD k := by
  have hi : 8 * slot.val + k < 32 := by omega
  rw [p.getLsbD_drawn rom l hi]
  match slot with
  | 0 => grind
  | 1 => grind
  | 2 => grind
  | 3 => grind

theorem Picture.slotShows_drawn (slot : Fin 4) : SlotShows rom (p.drawn rom l) slot (p.code slot) :=
  ⟨(p.code slot).isLt, fun _ hk => p.getLsbD_drawn_slot rom l slot hk⟩

theorem Picture.getLsbD_drawn_point : (p.drawn rom l).getLsbD 15 = p.point := p.getLsbD_drawn rom l (by decide)

theorem Picture.getLsbD_drawn_colon : (p.drawn rom l).getLsbD 23 = p.colon := p.getLsbD_drawn rom l (by decide)

/-- What was on the rendered lines before is gone, and the ROM counts by its reads only (R206). -/
theorem Picture.getLsbD_drawn_congr {rom' : List Host.Cell} (hrom : ∀ g, romRead rom g = romRead rom' g)
    (l' : BitVec 32) {b : Nat} (hb : b < 32) (hrendered : renderedBit b = true) :
    (p.drawn rom l).getLsbD b = (p.drawn rom' l').getLsbD b := by
  have hbackplane : b ≠ 7 ∧ b ≠ 31 := by simpa [renderedBit] using hrendered
  by_cases hpoint : b = 15
  · rw [hpoint, p.getLsbD_drawn_point, p.getLsbD_drawn_point]
  by_cases hcolon : b = 23
  · rw [hcolon, p.getLsbD_drawn_colon, p.getLsbD_drawn_colon]
  obtain ⟨slot, k, hk, rfl⟩ : ∃ (slot : Fin 4) (k : Nat), k < 7 ∧ b = 8 * slot + k :=
    ⟨⟨b / 8, by omega⟩, b % 8, by omega, (Nat.div_add_mod b 8).symm⟩
  rw [p.getLsbD_drawn_slot rom l slot hk, p.getLsbD_drawn_slot rom' l' slot hk, hrom]

end

/-- The lines of t carry the picture, by the ROM of s, and the backplanes of s. -/
structure Shows (p : Picture) (s t : State) : Prop where
  slots : ∀ slot : Fin 4, SlotShows s.rom t.latch slot (p.code slot)
  point : t.latch.getLsbD 15 = p.point
  colon : t.latch.getLsbD 23 = p.colon
  bp0 : t.bp0 = s.bp0
  bp1 : t.bp1 = s.bp1

theorem Shows.slot {p : Picture} {s t : State} (h : Shows p s t) (slot : Fin 4) {code : Nat}
    (hcode : (p.code slot : Nat) = code) : SlotShows s.rom t.latch slot code :=
  hcode ▸ h.slots slot

theorem shows_of_latch {p : Picture} {s t : State} (h : t.latch = p.drawn s.rom s.latch) : Shows p s t where
  slots := by
    rw [h]
    exact p.slotShows_drawn s.rom s.latch
  point := by rw [h, p.getLsbD_drawn_point]
  colon := by rw [h, p.getLsbD_drawn_colon]
  bp0 := by
    rw [State.bp0, h]
    exact s.drive_bp0 p.writes
  bp1 := by
    rw [State.bp1, h]
    exact s.drive_bp1 p.writes

theorem rendersAlike_of_latch {i : Instr} {p : Picture} {s u t v : State}
    (hrom : ∀ g, romRead s.rom g = romRead u.rom g) (hs : exec i s = .next t) (ht : t.latch = p.drawn s.rom s.latch)
    (hu : exec i u = .next v) (hv : v.latch = p.drawn u.rom u.latch) : RendersAlike i s u := by
  refine ⟨t, v, hs, hu, fun b hb hrendered => ?_, (shows_of_latch ht).bp0, (shows_of_latch ht).bp1⟩
  rw [ht, hv]
  exact p.getLsbD_drawn_congr s.rom s.latch hrom u.latch hb hrendered

/-! ### Driver writes run one by one -/

theorem exec_toInstr_of_wf {op : DriverOp} (h : op.toInstr.wf = true) (s : State) :
    exec op.toInstr s = .next (s.drive [op]) := by
  cases op with
  | segwr slot g dp => exact exec_segwr_of_not_reserved s (segwrReserved_eq_none_iff.mpr h)
  | colwr v => rfl

theorem runAll_toInstr_of_wf {ops : List DriverOp} (h : ∀ op ∈ ops, op.toInstr.wf = true) (s : State) :
    runAll (ops.map DriverOp.toInstr) s = .next (s.drive ops) := by
  induction ops generalizing s with
  | nil => rfl
  | cons op rest ih =>
    obtain ⟨hop, hrest⟩ := List.forall_mem_cons.mp h
    rw [List.map_cons, runAll, exec_toInstr_of_wf hop, andThen_next, ih hrest]
    rfl

theorem runAll_picture (p : Picture) (s : State) :
    runAll (p.writes.map DriverOp.toInstr) s = .next (s.drive p.writes) :=
  runAll_toInstr_of_wf (fun _ => p.wf_of_mem_writes) s

/-! ### The picture of each renderer -/

/-- The glyph code of the tens digit of a number below 150. -/
def tensCode (n : Nat) (h : n < 150) : Fin 15 := ⟨n / 10, by omega⟩

/-- The glyph code of the units digit. -/
def unitsCode (n : Nat) : Fin 15 := ⟨n % 10, by omega⟩

theorem hdisp_hourOf_lt (cfg12h : Bool) (tod : BitVec 18) : hdisp cfg12h (hourOf tod.toNat) < 150 := by
  have hhour : hourOf tod.toNat < 37 := by
    simp only [hourOf, halfPerHour]
    omega
  rw [hdisp]
  split_ifs <;> omega

theorem minuteOf_lt (t : Nat) : minuteOf t < 150 := by
  simp only [minuteOf, halfPerHour, halfPerMin]
  omega

/-- REND_TIME's (R190). -/
def timePicture (cfg12h : Bool) (tod : BitVec 18) : Picture where
  code := ![tensCode (hdisp cfg12h (hourOf tod.toNat)) (hdisp_hourOf_lt cfg12h tod),
    unitsCode (hdisp cfg12h (hourOf tod.toNat)),
    tensCode (minuteOf tod.toNat) (minuteOf_lt _), unitsCode (minuteOf tod.toNat)]
  point := false
  colon := tod.getLsbD 0

/-- REND_VOLT's (R195). -/
def voltPicture (v : BitVec 16) : Picture where
  code := ![10, tensCode (v.toNat % 100) (by omega), unitsCode (v.toNat % 100), 14]
  point := true
  colon := false

/-- REND_TEMP's (R200). -/
def tempPicture (kelv : BitVec 20) : Picture where
  code := ![if kelv.toNat < kelvinAt0C then 11 else unitsCode (celsiusMagnitude kelv / 10),
    unitsCode (celsiusMagnitude kelv), 12, 13]
  point := false
  colon := false

theorem timeWrites_eq (cfg12h : Bool) (tod : BitVec 18) : timeWrites cfg12h tod = (timePicture cfg12h tod).writes := rfl

theorem voltWrites_eq (v : BitVec 16) : voltWrites v = (voltPicture v).writes := rfl

theorem tempWrites_eq (kelv : BitVec 20) : tempWrites kelv = (tempPicture kelv).writes := by
  have hfirst : (tempPicture kelv).glyph 0 =
      if kelv.toNat < kelvinAt0C then gMinus else digit (celsiusMagnitude kelv / 10 % 10) :=
    apply_ite (fun c : Fin 15 => BitVec.ofNat 4 c) ..
  rw [Picture.writes, hfirst]
  rfl

section
variable {kelv : BitVec 20} (h : kelv.toNat < 273)
include h

theorem celsiusMagnitude_of_lt : celsiusMagnitude kelv = 273 - kelv.toNat := by
  simp only [celsiusMagnitude, kelvinAt0C]
  omega

theorem tempPicture_code_zero_of_lt : ((tempPicture kelv).code 0 : Nat) = 11 := congrArg Fin.val (if_pos h)

theorem tempPicture_code_one_of_lt : ((tempPicture kelv).code 1 : Nat) = (273 - kelv.toNat) % 10 :=
  congrArg (· % 10) (celsiusMagnitude_of_lt h)

end

section
variable {kelv : BitVec 20} (h : 273 ≤ kelv.toNat)
include h

theorem celsiusMagnitude_of_ge : celsiusMagnitude kelv = kelv.toNat - 273 := by
  simp only [celsiusMagnitude, kelvinAt0C]
  omega

theorem tempPicture_code_zero_of_ge : ((tempPicture kelv).code 0 : Nat) = (kelv.toNat - 273) / 10 % 10 :=
  calc ((tempPicture kelv).code 0 : Nat) = celsiusMagnitude kelv / 10 % 10 :=
        congrArg Fin.val (if_neg (Nat.not_lt.mpr h))
    _ = (kelv.toNat - 273) / 10 % 10 := by rw [celsiusMagnitude_of_ge h]

theorem tempPicture_code_one_of_ge : ((tempPicture kelv).code 1 : Nat) = (kelv.toNat - 273) % 10 :=
  congrArg (· % 10) (celsiusMagnitude_of_ge h)

end

theorem rendTime_latch (s : State) : (rendTime s).latch = (timePicture s.cfg12h s.tod).drawn s.rom s.latch := rfl

theorem rendVolt_latch (s : State) : (rendVolt s).latch = (voltPicture s.sampleVoltIn).drawn s.rom s.latch := rfl

theorem rendTemp_latch (s : State) : (rendTemp s).latch = (tempPicture s.sampleKelvin).drawn s.rom s.latch := by
  rw [Picture.drawn, ← tempWrites_eq]
  rfl

theorem voltPicture_congr {v w : BitVec 16} (h : v.toNat % 100 = w.toNat % 100) : voltPicture v = voltPicture w := by
  simp only [voltPicture, h]

/-- Every write of every renderer is one of a picture. -/
theorem wf_of_mem_writes {cfg12h : Bool} {tod : BitVec 18} {v : BitVec 16} {kelv : BitVec 20} {op : DriverOp}
    (h : op ∈ timeWrites cfg12h tod ++ voltWrites v ++ tempWrites kelv) : op.toInstr.wf = true := by
  rw [timeWrites_eq, voltWrites_eq, tempWrites_eq, List.mem_append, List.mem_append] at h
  obtain (h | h) | h := h
  · exact (timePicture cfg12h tod).wf_of_mem_writes h
  · exact (voltPicture v).wf_of_mem_writes h
  · exact (tempPicture kelv).wf_of_mem_writes h

/-! ### The statements -/

/-- Settles O24, by REND_TIME's picture, which every TOD has. -/
theorem rendTimeShowsTheTime : Obligations.RendTimeShowsTheTime := by
  intro s _
  have hshows := shows_of_latch (rendTime_latch s)
  exact ⟨rendTime s, rfl, rfl, ⟨hshows.slot 0 rfl, hshows.slot 1 rfl, hshows.slot 2 rfl, hshows.slot 3 rfl⟩,
    hshows.point, hshows.colon.trans (Nat.testBit_zero _), hshows.bp0, hshows.bp1⟩

/-- Settles O25, by REND_VOLT's picture. -/
theorem rendVoltShowsTheVoltage : Obligations.RendVoltShowsTheVoltage := by
  intro s
  have hshows := shows_of_latch (rendVolt_latch s)
  have htenths : s.sampleVoltIn.toNat % 100 % 10 = s.sampleVoltIn.toNat % 10 := Nat.mod_mod_of_dvd _ (by decide)
  refine ⟨rendVolt s, s.sampleVoltIn, rfl, rfl, ?_, hshows.slot 0 rfl, hshows.slot 1 rfl, hshows.slot 2 htenths,
    hshows.slot 3 rfl, hshows.point, hshows.colon, hshows.bp0, hshows.bp1⟩
  rw [State.sampleVoltIn]
  cases s.ports.voltIn with
  | none => rfl
  | some v => rfl

/-- Settles O26, by REND_TEMP's picture below 273 and from 273 on. -/
theorem rendTempShowsTheTemperature : Obligations.RendTempShowsTheTemperature := by
  intro s
  have hshows := shows_of_latch (rendTemp_latch s)
  exact ⟨rendTemp s, s.sampleKelvin, rfl, rfl, tconv_toNat _ _ _ _, fun h => if_neg (Nat.not_le.mpr h),
    fun h => ⟨hshows.slot 0 (tempPicture_code_zero_of_lt h), hshows.slot 1 (tempPicture_code_one_of_lt h)⟩,
    fun h => ⟨hshows.slot 0 (tempPicture_code_zero_of_ge h), hshows.slot 1 (tempPicture_code_one_of_ge h)⟩,
    hshows.slot 2 rfl, hshows.slot 3 rfl, hshows.point, hshows.colon, hshows.bp0, hshows.bp1⟩

/-- Settles O27: the product is at most 65535 x 65535, and the shift is a division that rounds down. -/
theorem conversionFitsAndRounds : Obligations.ConversionFitsAndRounds := by
  intro ofs raw slope draw h
  have hofs : ofs.toNat - raw.toNat ≤ 65535 := by have := ofs.isLt; omega
  have hslope : slope.toNat ≤ 65535 := Nat.le_of_lt_succ slope.isLt
  have hproduct : (ofs.toNat - raw.toNat) * slope.toNat ≤ 65535 * 65535 := Nat.mul_le_mul hofs hslope
  simp only [tconv_toNat ofs raw slope draw h]
  omega

/-- Settles O28: no write of a renderer is refused. -/
theorem renderersExpandIntoDriverWrites : Obligations.RenderersExpandIntoDriverWrites := by
  intro s
  refine ⟨(runAll_picture (timePicture s.cfg12h s.tod) s).symm,
    (runAll_picture (voltPicture s.sampleVoltIn) _).symm, ?_⟩
  rw [tempWrites_eq, runAll_picture, ← tempWrites_eq]
  rfl

/-- Settles O29: a write of a picture is well-formed, and its word decodes to it. -/
theorem renderersIssueNoReservedWord : Obligations.RenderersIssueNoReservedWord := by
  intro cfg tod v k op h
  have hwf : op.toInstr.wf = true := wf_of_mem_writes h
  refine ⟨?_, op.toInstr, decode_encode hwf⟩
  rintro slot g dp rfl
  obtain ⟨hg, hdp⟩ := segwrWf_iff.mp hwf
  exact ⟨Nat.le_of_lt_succ hg, hdp⟩

/-- Settles O30: equal inputs give one picture, drawn on both latches. -/
theorem renderersForgetTheOldDisplay : Obligations.RenderersForgetTheOldDisplay := by
  intro s u hrom
  refine ⟨fun htod hcfg => ?_, fun hvolt => ?_, fun hkelv => ?_⟩
  · have hlatch : (rendTime s).latch = (timePicture u.cfg12h u.tod).drawn s.rom s.latch := by
      rw [rendTime_latch, htod, hcfg]
    exact rendersAlike_of_latch hrom rfl hlatch rfl (rendTime_latch u)
  · have hlatch : (rendVolt s).latch = (voltPicture u.sampleVoltIn).drawn s.rom s.latch := by
      rw [rendVolt_latch, hvolt]
    exact rendersAlike_of_latch hrom rfl hlatch rfl (rendVolt_latch u)
  · have hlatch : (rendTemp s).latch = (tempPicture u.sampleKelvin).drawn s.rom s.latch := by
      rw [rendTemp_latch, hkelv]
    exact rendersAlike_of_latch hrom rfl hlatch rfl (rendTemp_latch u)

/-- Settles O31: such samples have one picture. -/
theorem voltageIsShownModulo100 : Obligations.VoltageIsShownModulo100 := by
  intro s v w h
  refine ⟨_, _, rfl, rfl, ?_⟩
  rw [rendVolt_latch, rendVolt_latch]
  exact congrArg (Picture.drawn · s.rom s.latch) (voltPicture_congr h)

end Sys2Proof.Machine

/-! PROOFS. 43_segment_driver.md: the two driver writes and what is visible of them. First the visible lines by the parity
and as the bits of the absolute pattern; then what each write leaves on its lines, and the writes of a boundary TICK. -/

namespace Sys2Proof.Machine

/-! ### The visible lines (10_state.md R41, R42) -/

theorem visible_latch_eq_xor_par (s : State) (i : Nat) : visible s.latch i = (s.latch.getLsbD i ^^ s.par) := rfl

/-- What is visible of a line at each parity (43_segment_driver.md R236, R237). -/
theorem visible_of_getLsbD {s : State} {i : Nat} {v : Bool} (h : s.latch.getLsbD i = v) :
    (s.par = false → visible s.latch i = v) ∧ (s.par = true → visible s.latch i = !v) := by
  rw [visible_latch_eq_xor_par, h]
  exact ⟨fun hpar => by rw [hpar, Bool.xor_false], fun hpar => by rw [hpar, Bool.xor_true]⟩

/-- The bits of the absolute pattern are the visible lines. -/
theorem getLsbD_absOf (l : BitVec 32) {i : Nat} (hi : i < 32) : (absOf l).getLsbD i = visible l i := by
  have hones : (0xFFFFFFFF#32).getLsbD i = decide (i < 32) := BitVec.getLsbD_allOnes
  rw [absOf, visible, BitVec.getLsbD_xor]
  cases l.getLsbD 7 with
  | false => rw [if_neg Bool.false_ne_true, BitVec.getLsbD_zero]
  | true => rw [if_pos rfl, hones, decide_eq_true hi]

/-- The inversion leaves the absolute pattern (43_segment_driver.md R241). -/
theorem absOf_not (l : BitVec 32) : absOf (~~~l) = absOf l := by
  apply BitVec.eq_of_getLsbD_eq
  intro i hi
  rw [getLsbD_absOf _ hi, getLsbD_absOf _ hi, visible_not l hi]

/-- Up to and with the TICK that takes TCNT to 31 the absolute pattern stands. -/
theorem iterate_ticked_absOf {n : Nat} {s : State} (h : s.tcnt.toNat + n ≤ 31) :
    absOf (State.ticked^[n] s).latch = absOf s.latch := by
  induction n with
  | zero => rfl
  | succ n ih =>
    have hoff : (State.ticked^[n] s).tcnt.toNat ≠ 31 := by
      rw [iterate_ticked_tcnt]
      omega
    have honly : OnlyInverts (State.ticked^[n] s) := fun hb => absurd hb hoff
    rw [Function.iterate_succ_apply', ticked_latch_of_onlyInverts honly, absOf_not, ih (by omega)]

/-! ### SEGWR and COLWR (43_segment_driver.md R230, R234) -/

theorem State.drive_par (s : State) (ops : List DriverOp) : (s.drive ops).par = s.par := s.drive_bp0 ops

theorem exec_colwr (s : State) (v : Bool) : exec (.colwr v) s = .next (s.drive [.colwr v]) := rfl

/-- SEGWR either refuses a reserved form or drives its lines. -/
theorem exec_segwr_eq_next {s t : State} {slot : BitVec 2} {g : BitVec 4} {dp : Bool} :
    exec (.segwr slot g dp) s = .next t ↔
      segwrReserved slot g dp = .none ∧ s.drive [.segwr slot g dp] = t := by
  simp only [exec, execSegwr]
  cases segwrReserved slot g dp <;> simp

theorem exec_segwr_of_reserved {slot : BitVec 2} {g : BitVec 4} {dp : Bool} {why : DecodeError} (s : State)
    (h : segwrReserved slot g dp = .some why) :
    exec (.segwr slot g dp) s = .refused (.reservedWord (encode (.segwr slot g dp)) why) := by
  simp only [exec, execSegwr, h, encode]

section
variable (s : State) (slot : BitVec 2) (g : BitVec 4) (dp : Bool)

theorem getLsbD_drive_segwr_segment {k : Nat} (hk : k < 7) :
    (s.drive [.segwr slot g dp]).latch.getLsbD (8 * slot.toNat + k) = (romRead s.rom g).getLsbD k := by
  have hslot := slot.isLt
  have hline : 8 * slot.toNat + k < 32 := by omega
  have hpoint : ¬ (slot = 1#2 ∧ 8 * slot.toNat + k = 15) := by
    rintro ⟨rfl, hline15⟩
    have hlast : 8 * 1 + k = 15 := hline15
    omega
  have hsegment : 8 * slot.toNat ≤ 8 * slot.toNat + k ∧ 8 * slot.toNat + k < 8 * slot.toNat + 7 := by omega
  rw [State.drive_latch, latchDrivers, latchDriver, latchDrivers, getLsbD_latchSegwr _ _ _ _ hline, if_neg hpoint,
    if_pos hsegment, Nat.add_sub_cancel_left]

theorem getLsbD_drive_segwr_point (hslot : slot = 1#2) :
    (s.drive [.segwr slot g dp]).latch.getLsbD 15 = dp := by
  rw [State.drive_latch, latchDrivers, latchDriver, latchDrivers, getLsbD_latchSegwr _ _ _ _ (by decide),
    if_pos ⟨hslot, rfl⟩]

theorem getLsbD_drive_colwr (v : Bool) {i : Nat} (hi : i < 32) :
    (s.drive [.colwr v]).latch.getLsbD i = if i = 23 then v else s.latch.getLsbD i :=
  getLsbD_latchColwr v s.latch hi

end

/-! ### The writes of a boundary TICK (43_segment_driver.md R240) -/

/-- A renderer is its query, and then its driver writes. -/
theorem rendered_eq_drive (r : RSel) (s : State) : rendered r s = (afterQuery r s).drive (issuedWrites r s) := by
  cases r with
  | none => rfl
  | time => rfl
  | volt => rfl
  | temp => rfl

theorem afterQuery_par (r : RSel) (s : State) : (afterQuery r s).par = s.par := by
  cases r with
  | none => rfl
  | time => rfl
  | volt => rfl
  | temp => rfl

theorem wf_of_mem_issuedWrites {r : RSel} {s : State} {op : DriverOp} (h : op ∈ issuedWrites r s) :
    op.toInstr.wf = true := by
  cases r with
  | none => exact absurd h List.not_mem_nil
  | time => exact (timePicture s.cfg12h s.tod).wf_of_mem_writes h
  | volt => exact (voltPicture s.sampleVoltIn).wf_of_mem_writes h
  | temp => exact (tempPicture s.sampleKelvin).wf_of_mem_writes (tempWrites_eq s.sampleKelvin ▸ h)

/-- The first k writes of a renderer run to completion, after its query, and leave the parity. -/
theorem runAll_take_issuedWrites (r : RSel) (s : State) (k : Nat) :
    ∃ t, runAll (((issuedWrites r s).take k).map DriverOp.toInstr) (afterQuery r s) = .next t ∧ t.par = s.par := by
  refine ⟨_, runAll_toInstr_of_wf (fun op h => wf_of_mem_issuedWrites (List.mem_of_mem_take h)) _, ?_⟩
  rw [State.drive_par, afterQuery_par]

theorem runAll_issuedWrites (r : RSel) (s : State) :
    runAll ((issuedWrites r s).map DriverOp.toInstr) (afterQuery r s) = .next (rendered r s) := by
  rw [runAll_toInstr_of_wf (fun _ => wf_of_mem_issuedWrites), rendered_eq_drive]

/-- TCNT is odd at the boundary, and PAR with it (10_state.md R57). -/
theorem Driven.par_of_tcnt_eq {s : State} (hs : Driven s) (h : s.tcnt.toNat = 31) : s.par = true := by
  have htcnt : s.tcnt = 31#5 := BitVec.eq_of_toNat_eq h
  rw [hs.par_eq, htcnt]
  rfl

theorem rendererSelected_par (s : State) : s.tickBegun.rendererSelected.par = !s.par := phaseInv_bp0 s

theorem ticked_latch_of_tcnt_ne {s : State} (h : s.tcnt.toNat ≠ 31) : s.ticked.latch = s.tickBegun.latch := by
  rw [ticked_eq_tickEnd, State.clearTransients_latch, State.tickEnd, if_neg h]

theorem ticked_latch_eq_rendered {s : State} (h : s.tcnt.toNat = 31) :
    s.ticked.latch = (rendered s.boundaryRenderer s.tickBegun.rendererSelected).latch := by
  rw [ticked_eq_tickEnd, State.clearTransients_latch, State.tickEnd, if_pos h]

/-! ### The statements -/

/-- Settles O41: PAR is 1 before the boundary of a driven state, its inversion makes it 0, and no driver write touches a
backplane. -/
theorem tickWritesAtEvenParity : Obligations.TickWritesAtEvenParity := by
  intro s hs
  have hclear : s.clearTransients = s := hs.settled.clearTransients_eq
  refine ⟨fun hoff => ?_, fun hb => ?_⟩
  · have hbegun : runAll [.phaseInv, .tcntStep] s.clearTransients = .next s.tickBegun := rfl
    rw [hclear] at hbegun
    exact ⟨_, _, hbegun, exec_tick s, ticked_latch_of_tcnt_ne hoff⟩
  · have hpar : s.par = true := hs.par_of_tcnt_eq hb
    have hbp1 : s.bp1 = true := hs.sound.bp_eq.symm.trans hpar
    have hselected : s.tickBegun.rendererSelected.par = false := by rw [rendererSelected_par, hpar, Bool.not_true]
    have hprefix := runAll_boundaryPrefix s
    rw [hclear] at hprefix
    refine ⟨⟨phaseInv s, exec_phaseInv s, ?_⟩, s.tickBegun.rendererSelected, s.sampleBtnMin, s.sampleBtnHour,
      s.boundaryRenderer, hprefix, rfl, rfl, rfl, hselected, fun k _ => ?_, _, s.ticked, runAll_issuedWrites _ _,
      runAll_rendererCall _ _, exec_tick s, ticked_latch_eq_rendered hb, ?_, ?_⟩
    · exact (phaseInv_bp0 s).trans (congrArg not hpar)
    · obtain ⟨x, hx, hxpar⟩ := runAll_take_issuedWrites s.boundaryRenderer s.tickBegun.rendererSelected k
      exact ⟨x, hx, hxpar.trans hselected⟩
    · rw [ticked_par, hpar, Bool.not_true]
    · rw [ticked_bp1, hbp1, Bool.not_true]

/-- Settles O34, by what COLWR does to each line. -/
theorem colwrWritesTheColon : Obligations.ColwrWritesTheColon := by
  intro s v
  have hcolon : (s.drive [.colwr v]).latch.getLsbD 23 = v := getLsbD_drive_colwr s v (by decide)
  refine ⟨_, exec_colwr s v, rfl, fun i hi => getLsbD_drive_colwr s v hi, fun hpar => ?_⟩
  exact (visible_of_getLsbD hcolon).1 ((s.drive_par _).trans hpar)

/-- Settles O35: a write leaves PAR, and a written line is visible by PAR. -/
theorem writtenValueIsVisibleAtEvenParity : Obligations.WrittenValueIsVisibleAtEvenParity := by
  refine ⟨fun s t slot g dp h => ?_, fun s t v h => ?_⟩
  · obtain ⟨-, rfl⟩ := exec_segwr_eq_next.mp h
    have hsegment {k : Nat} (hk : k < 7) := visible_of_getLsbD (getLsbD_drive_segwr_segment s slot g dp hk)
    have hpoint (hslot : slot.toNat = 1) :=
      visible_of_getLsbD (getLsbD_drive_segwr_point s slot g dp (BitVec.eq_of_toNat_eq hslot))
    rw [← s.drive_par [.segwr slot g dp]]
    exact ⟨fun hpar => ⟨fun _ hk => (hsegment hk).1 hpar, fun hslot => (hpoint hslot).1 hpar⟩,
      fun hpar => ⟨fun _ hk => (hsegment hk).2 hpar, fun hslot => (hpoint hslot).2 hpar⟩⟩
  · rw [exec_colwr] at h
    cases h
    rw [← s.drive_par [.colwr v]]
    exact visible_of_getLsbD (getLsbD_drive_colwr s v (by decide))

/-- Settles O42: such a TICK only inverts. -/
theorem displayIsSteadyBetweenRenderers : Obligations.DisplayIsSteadyBetweenRenderers := by
  intro s h
  have hlatch : s.ticked.latch = ~~~s.latch := ticked_latch_of_onlyInverts h
  refine ⟨s.ticked, exec_tick s, hlatch, ?_, fun i hi => ?_⟩
  · rw [hlatch, absOf_not]
  · rw [hlatch, visible_not _ hi]

/-- Settles O54: RESET leaves the absolute pattern 0, and the first boundary is the 32nd TICK. -/
theorem displayIsBlankAfterReset : Obligations.DisplayIsBlankAfterReset := by
  intro s n hn
  have hcount : s.resetDone.tcnt.toNat + n ≤ 31 := (Nat.zero_add n).le.trans hn
  have hreset : absOf s.resetDone.latch = 0#32 := (by decide : absOf 0#32 = 0#32)
  have hblank : absOf (State.ticked^[n] s.resetDone).latch = 0#32 := (iterate_ticked_absOf hcount).trans hreset
  refine ⟨_, _, exec_reset s, tickRun_eq n _, hblank, fun i hi => ?_⟩
  rw [← getLsbD_absOf _ hi, hblank, BitVec.getLsbD_zero]

/-- Settles O33, by R110's order of the two reserved forms. -/
theorem segwrRefusesReservedForms : Obligations.SegwrRefusesReservedForms := by
  intro s slot g dp
  refine ⟨fun hg => exec_segwr_of_reserved s ?_, fun hg hdp hslot => exec_segwr_of_reserved s ?_⟩
  · exact if_pos (BitVec.eq_of_toNat_eq hg)
  · have hglyph : g ≠ 15#4 := BitVec.toNat_ne.mpr hg
    have houtside : dp = true ∧ slot ≠ 1#2 := ⟨hdp, BitVec.toNat_ne.mpr hslot⟩
    rw [segwrReserved, if_neg hglyph, if_pos houtside]

end Sys2Proof.Machine

/-! PROOFS. 60_exceptions.md: how a micro-operation can stop, and what the strobes start. First the stops of SELECT and
what a word runs; then the statements. -/

namespace Sys2Proof.Machine

/-! ### How SELECT can stop (10_state.md R45) -/

/-- The answer is a next state, or a refusal for a transient that holds no value. -/
def CompletesOrUnwritten (o : Answer) : Prop := (∃ t, o = .next t) ∨ ∃ x, o = .refused (.unwrittenTransient x)

theorem completesOrUnwritten_next (t : State) : CompletesOrUnwritten (.next t) := .inl ⟨t, rfl⟩

/-- A read of a transient adds its own refusal to what its continuation can do. -/
theorem completesOrUnwritten_withTransient {α : Type} (r : Transient) (v : Option α) {k : α → Answer}
    (hk : ∀ a, CompletesOrUnwritten (k a)) : CompletesOrUnwritten (withTransient r v k) := by
  cases v with
  | none => exact .inr ⟨r, withTransient_none r k⟩
  | some a => exact hk a

/-- SELECT's only stops are its three reads. -/
theorem completesOrUnwritten_selectRenderer (s : State) : CompletesOrUnwritten (selectRenderer s) := by
  refine completesOrUnwritten_withTransient _ _ fun m => completesOrUnwritten_withTransient _ _ fun h => ?_
  split
  · exact completesOrUnwritten_next _
  · exact completesOrUnwritten_withTransient _ _ fun _ => completesOrUnwritten_next _

/-! ### What a word runs -/

theorem runWord_encode {i : Instr} (h : i.wf = true) (s : State) : runWord (encode i) s = exec i s.markLaunched := by
  simp only [runWord, decode_encode h]

/-- A step from a launchable state with nothing from the harness runs the word of the strobes, if they start one. -/
theorem step_eq_of_queue_nil {s : State} (hq : s.queue = []) (hl : Launchable s) :
    step s =
      (strobeWord (Config.resetStrobe s.draws) (Config.tickStrobe s.draws)).elim
        (.next { s with draws := s.draws + 1 }) (runWord · { s with draws := s.draws + 1 }) := by
  simp only [step, launchRefusal_eq_none.mpr hl, fetch_of_queue_nil hq]
  cases strobeWord (Config.resetStrobe s.draws) (Config.tickStrobe s.draws) <;> rfl

/-! ### The statements -/

/-- Settles O45: SELECT stops only at a read and SEGWR only at a reserved form; every other arm answers a next state. -/
theorem onlySelectAndReservedSegwrAreRefused : Obligations.OnlySelectAndReservedSegwrAreRefused := by
  intro i s
  cases i with
  | tick => exact .inl ⟨_, exec_tick s⟩
  | reset => exact .inl ⟨_, exec_reset s⟩
  | phaseInv => exact .inl ⟨_, exec_phaseInv s⟩
  | tcntStep => exact .inl ⟨tcntStep s, rfl⟩
  | todInc => exact .inl ⟨todInc s, rfl⟩
  | phaseIdx => exact .inl ⟨phaseIdx s, rfl⟩
  | btnSample => exact .inl ⟨btnSample s, rfl⟩
  | adjMin => exact .inl ⟨adjMin s, rfl⟩
  | adjHour => exact .inl ⟨adjHour s, rfl⟩
  | select =>
    exact (completesOrUnwritten_selectRenderer s).imp_right fun hunwritten => .inl ⟨rfl, hunwritten⟩
  | rendTime => exact .inl ⟨rendTime s, rfl⟩
  | rendVolt => exact .inl ⟨rendVolt s, rfl⟩
  | rendTemp => exact .inl ⟨rendTemp s, rfl⟩
  | segwr slot g dp =>
    cases hr : segwrReserved slot g dp with
    | none => exact .inl ⟨_, exec_segwr_of_not_reserved s hr⟩
    | some why =>
      have hwf : segwrWf slot g dp ≠ true := mt segwrReserved_eq_none_iff.mpr (by simp [hr])
      exact .inr (.inr ⟨Bool.eq_false_of_not_eq_true hwf, why, exec_segwr_of_reserved s hr⟩)
  | colwr v => exact .inl ⟨_, exec_colwr s v⟩

/-- Settles O10, by the word the strobes start: RESET's before TICK's. -/
theorem stepTakesTheStrobes : Obligations.StepTakesTheStrobes := by
  intro s hq hl
  rw [step_eq_of_queue_nil hq hl, strobeWord]
  split
  · exact runWord_encode (i := .reset) rfl _
  · split
    · exact runWord_encode (i := .tick) rfl _
    · rfl

end Sys2Proof.Machine

/-! PROOFS. 70_reset_and_hazards.md: RESET from any state, and the hardware's own first step after reset. First what RESET
re-establishes, and the two steps that the strobes can start in the state after reset. -/

namespace Sys2Proof.Machine

/-! ### What RESET re-establishes (70_reset_and_hazards.md R290) -/

/-- RESET writes all that the invariant of R57 speaks of but the ROM. -/
theorem sound_resetDone {s : State} (hrom : romWf s.rom = true) : Sound s.resetDone where
  tod_lt := (by decide : (0#18).toNat < dayLen)
  bp_eq := (resetDone_par s).trans (resetDone_bp1 s).symm
  pidx_lt _ hp := nomatch hp
  rom_wf := hrom

theorem driven_resetDone {s : State} (hrom : romWf s.rom = true) : Driven s.resetDone where
  sound := sound_resetDone hrom
  settled := settled_resetDone s
  par_eq := (resetDone_par s).trans (by decide : false = (0#5).getLsbD 0)

/-! ### The state after reset, with the model's own counts moved (70_reset_and_hazards.md R291) -/

theorem launchable_reset : Launchable State.reset :=
  .inr ⟨driven_reset.sound.tod_lt, driven_reset.sound.bp_eq, driven_reset.par_eq⟩

theorem exec_reset_after_reset (d : Nat) (l : Bool) :
    exec .reset { State.reset with draws := d, launched := l } =
      .next { State.reset with draws := d, launched := l } :=
  exec_reset _

theorem exec_tick_after_reset (d : Nat) (l : Bool) :
    exec .tick { State.reset with draws := d, launched := l } =
      .next { State.reset with tcnt := 1#5, latch := 0xFFFFFFFF#32, draws := d, launched := l } := by
  have hbelow : (0#5).toNat < 31 := by decide
  have hcount : 0#5 + 1#5 = 1#5 := by decide
  have hlines : ~~~0#32 = 0xFFFFFFFF#32 := by decide
  rw [← hcount, ← hlines]
  exact nonBoundaryTick.2 _ hbelow (driven_reset.withDraws d l).settled

/-! ### The statements -/

/-- Settles O13: the state RESET leaves, with its four writes made. -/
theorem resetClearsCountersAndLatch : Obligations.ResetClearsCountersAndLatch := fun s => exec_reset s

/-- Settles O14: the ROM is all that the invariant asks of the state before. -/
theorem resetGivesDrivenState : Obligations.ResetGivesDrivenState :=
  fun s hrom => ⟨s.resetDone, exec_reset s, driven_resetDone hrom, resetDone_par s⟩

/-- Settles O56: nothing is placed, so the strobes start RESET, TICK or nothing (O10). -/
theorem firstStepAfterReset : Obligations.FirstStepAfterReset := by
  have hstrobes := stepTakesTheStrobes State.reset rfl launchable_reset
  rw [exec_reset_after_reset, exec_tick_after_reset] at hstrobes
  exact hstrobes

end Sys2Proof.Machine
